-- ==== Sys2Proof/Word.lean ====
section
/-! DEFINITION. The words of the CJ448 and the fixed-size tables its blocks keep. -/

namespace Sys2Proof

/-- One byte of a transaction (Wire Formats). -/
abbrev Byte := BitVec 8

/-- A timebase value: 48 bits, wrapping (R105). -/
abbrev Time := BitVec 48

/-- The entry of a table at an index. -/
def look {α : Type} {n : Nat} (v : Vector α n) (i : Fin n) : α := v[i.val]

/-- The table with the entry at an index replaced. -/
def place {α : Type} {n : Nat} (v : Vector α n) (i : Fin n) (x : α) : Vector α n := v.set i.val x

/-- The table whose entries a rule gives. -/
def fill {α : Type} {n : Nat} (f : Fin n → α) : Vector α n := Vector.ofFn f

end Sys2Proof
end

