-- ==== Sys2Proof/Config.lean ====
section
/-! DEFINITION. The sizes and limits that the spec fixes for the part. It leaves no value to the
implementation and calls none undefined, so there is no free value here. -/

namespace Sys2Proof.Config

/-- A service limit counts units of 100 µs (R1). -/
def limitUnit : Nat := 100

/-- Counts saturate at 255, read as 255 or more (R24). -/
def maxCount : Nat := 255

/-- A host's stack holds at most four entries (R63). -/
def stackDepth : Nat := 4

/-- An entry is extended at most three times (R75). -/
def maxExtensions : Nat := 3

/-- A posted source has at most four non-FREE tickets (R100). -/
def postLimit : Nat := 4

/-- The fault queue holds at most eight records (R126). -/
def faultDepth : Nat := 8

/-- A transaction is 16 bytes, 128 bits (R132). -/
def frameBits : Nat := 128

/-- Timebase advances that must follow a select rise before a fall is seen (R132). -/
def selectGap : Nat := 2

end Sys2Proof.Config
end

