-- ==== Sys2Proof/Syntax.lean ====
section
/-! DEFINITION. The commands and events of the CJ448: one constructor of `Instr` for each row of the
opcode table. A host command carries its port, its tag byte and its arguments as the bytes of R145. -/

namespace Sys2Proof

/-- A host, and the port it is wired to: 0 to 3. -/
abbrev Port := Fin 4

/-- A source, 0 to 48. -/
abbrev SourceId := Fin 49

/-- An input line SRC0 to SRC31. -/
abbrev LineId := Fin 32

/-- A slot of the Ticket Pool. -/
abbrev SlotId := Fin 64

/-- A timer of the Timer Bank. -/
abbrev TimerId := Fin 8

/-- The 26 commands of the link with their argument bytes (R145). -/
inductive Command where
  | nop
  | attach
  | detach
  | status
  | time
  | lines
  | peek
  | claim
  | claimHandle (word : BitVec 16)
  | retire (word : BitVec 16)
  | extend (word : BitVec 16)
  | threshold (value : Byte)
  | post (source : Byte) (payload : BitVec 16)
  | timerSetup (timer mode prescale : Byte) (reload : BitVec 16) (gate chain : Byte)
  | timerStart (timer : Byte)
  | timerStop (timer : Byte)
  | timerLoad (timer : Byte) (reload : BitVec 16)
  | timerRead (timer : Byte)
  | take
  | handover (target : Byte)
  | eject (target : Byte)
  | sourceSet (source : Byte) (config : Vector Byte 9)
  | sourceRead (source : Byte)
  | flush
  | faultRead
  | trigger (source : Byte)
deriving DecidableEq, Repr

/-- One event that a timebase advance hands to a block of the part (R105). -/
inductive AdvanceEvent where
  /-- the sample of one input line (R4) -/
  | line (n : LineId)
  /-- the step of one timer at a prescale boundary, with its expiry if it comes (R109, R111) -/
  | timer (n : TimerId)
  /-- the service expiry of one stack entry, counted from the top of the stack (R80) -/
  | service (h : Port) (entry : Fin 4)
  /-- the collection expiry of the ticket in a slot (R87) -/
  | collection (slot : SlotId)
  /-- the affinity expiry of the ticket in a slot (R47) -/
  | affinity (slot : SlotId)
deriving DecidableEq, Repr

/-- The rows of the opcode table. -/
inductive Instr where
  | deviceReset
  /-- The rise of a port's select, with the SDI bit of each SCK rising edge since the fall (R132, R134). -/
  | transactionEnd (h : Port) (sdi : List Bool)
  | nop (h : Port) (tag : Byte)
  | attach (h : Port) (tag : Byte)
  | detach (h : Port) (tag : Byte)
  | status (h : Port) (tag : Byte)
  | time (h : Port) (tag : Byte)
  | lines (h : Port) (tag : Byte)
  | peek (h : Port) (tag : Byte)
  | claim (h : Port) (tag : Byte)
  | claimHandle (h : Port) (tag : Byte) (word : BitVec 16)
  | retire (h : Port) (tag : Byte) (word : BitVec 16)
  | extend (h : Port) (tag : Byte) (word : BitVec 16)
  | threshold (h : Port) (tag : Byte) (value : Byte)
  | post (h : Port) (tag : Byte) (source : Byte) (payload : BitVec 16)
  | timerSetup (h : Port) (tag : Byte) (timer mode prescale : Byte) (reload : BitVec 16) (gate chain : Byte)
  | timerStart (h : Port) (tag : Byte) (timer : Byte)
  | timerStop (h : Port) (tag : Byte) (timer : Byte)
  | timerLoad (h : Port) (tag : Byte) (timer : Byte) (reload : BitVec 16)
  | timerRead (h : Port) (tag : Byte) (timer : Byte)
  | take (h : Port) (tag : Byte)
  | handover (h : Port) (tag : Byte) (target : Byte)
  | eject (h : Port) (tag : Byte) (target : Byte)
  | sourceSet (h : Port) (tag : Byte) (source : Byte) (config : Vector Byte 9)
  | sourceRead (h : Port) (tag : Byte) (source : Byte)
  | flush (h : Port) (tag : Byte)
  | faultRead (h : Port) (tag : Byte)
  | trigger (h : Port) (tag : Byte) (source : Byte)
  /-- One timebase advance (R105). `pins` are the levels the lines show at its sample. `order` lists
  events of this advance that are taken first, in this order; the others follow in the order of
  `allAdvanceEvents`. `held` lists expiries that are left to rows of their own (logs 6 and 7). -/
  | timebaseAdvance (pins : BitVec 32) (order held : List AdvanceEvent)
  /-- The expiry of a timer that was held at its advance; `chainOrder` orders the occurrences of a chain. -/
  | timerExpiry (n : TimerId) (chainOrder : List TimerId)
  /-- The service expiry of a stack entry, counted from the top of the stack. -/
  | serviceExpiry (h : Port) (entry : Fin 4)
  | collectionExpiry (slot : SlotId)
  | affinityExpiry (slot : SlotId)
  /-- A fall of a port's select (R132). -/
  | selectFall (h : Port)
deriving DecidableEq, Repr

/-- The row that takes a command of the link at a port, with the tag its transaction carried. -/
def Command.toInstr (c : Command) (h : Port) (tag : Byte) : Instr :=
  match c with
  | .nop => .nop h tag
  | .attach => .attach h tag
  | .detach => .detach h tag
  | .status => .status h tag
  | .time => .time h tag
  | .lines => .lines h tag
  | .peek => .peek h tag
  | .claim => .claim h tag
  | .claimHandle w => .claimHandle h tag w
  | .retire w => .retire h tag w
  | .extend w => .extend h tag w
  | .threshold t => .threshold h tag t
  | .post src p => .post h tag src p
  | .timerSetup n m p r g c => .timerSetup h tag n m p r g c
  | .timerStart n => .timerStart h tag n
  | .timerStop n => .timerStop h tag n
  | .timerLoad n r => .timerLoad h tag n r
  | .timerRead n => .timerRead h tag n
  | .take => .take h tag
  | .handover t => .handover h tag t
  | .eject t => .eject h tag t
  | .sourceSet src cfg => .sourceSet h tag src cfg
  | .sourceRead src => .sourceRead h tag src
  | .flush => .flush h tag
  | .faultRead => .faultRead h tag
  | .trigger src => .trigger h tag src

/-- The port, tag and command of a row that is a host command; none for the other eight rows. -/
def Instr.command (i : Instr) : Option (Port × Byte × Command) :=
  match i with
  | .deviceReset => none
  | .transactionEnd _ _ => none
  | .nop h tag => some (h, tag, .nop)
  | .attach h tag => some (h, tag, .attach)
  | .detach h tag => some (h, tag, .detach)
  | .status h tag => some (h, tag, .status)
  | .time h tag => some (h, tag, .time)
  | .lines h tag => some (h, tag, .lines)
  | .peek h tag => some (h, tag, .peek)
  | .claim h tag => some (h, tag, .claim)
  | .claimHandle h tag w => some (h, tag, .claimHandle w)
  | .retire h tag w => some (h, tag, .retire w)
  | .extend h tag w => some (h, tag, .extend w)
  | .threshold h tag t => some (h, tag, .threshold t)
  | .post h tag src p => some (h, tag, .post src p)
  | .timerSetup h tag n m p r g c => some (h, tag, .timerSetup n m p r g c)
  | .timerStart h tag n => some (h, tag, .timerStart n)
  | .timerStop h tag n => some (h, tag, .timerStop n)
  | .timerLoad h tag n r => some (h, tag, .timerLoad n r)
  | .timerRead h tag n => some (h, tag, .timerRead n)
  | .take h tag => some (h, tag, .take)
  | .handover h tag t => some (h, tag, .handover t)
  | .eject h tag t => some (h, tag, .eject t)
  | .sourceSet h tag src cfg => some (h, tag, .sourceSet src cfg)
  | .sourceRead h tag src => some (h, tag, .sourceRead src)
  | .flush h tag => some (h, tag, .flush)
  | .faultRead h tag => some (h, tag, .faultRead)
  | .trigger h tag src => some (h, tag, .trigger src)
  | .timebaseAdvance _ _ _ => none
  | .timerExpiry _ _ => none
  | .serviceExpiry _ _ => none
  | .collectionExpiry _ => none
  | .affinityExpiry _ => none
  | .selectFall _ => none

end Sys2Proof
end

