-- ==== Sys2Proof/Machine/Bits.lean ====
section
/-! DEFINITION. Bytes, bits, sets of hosts and the check byte (R133, R143, R144). -/

namespace Sys2Proof

/-- A set of hosts: bit n stands for host n (R144). -/
abbrev HostSet := BitVec 4

/-- Host h is in the set. -/
def HostSet.has (S : HostSet) (h : Port) : Bool := S.getLsbD h.val

/-- The set of one host. -/
def HostSet.only (h : Port) : HostSet := 1#4 <<< h.val

/-- The set with host h added. -/
def HostSet.add (S : HostSet) (h : Port) : HostSet := S ||| HostSet.only h

/-- The set with host h taken out. -/
def HostSet.without (S : HostSet) (h : Port) : HostSet := S &&& ~~~ HostSet.only h

/-- The hosts of the set, in ascending order. -/
def HostSet.members (S : HostSet) : List Port := (List.finRange 4).filter fun h => HostSet.has S h

/-- The set of the hosts that meet a test. -/
def HostSet.collect (p : Port → Bool) : HostSet :=
  (List.finRange 4).foldl (fun S h => if p h then HostSet.add S h else S) 0

/-- The most significant byte of a 16-bit field, first on the wire (R143). -/
def highByte (w : BitVec 16) : Byte := w.extractLsb' 8 8

/-- The least significant byte of a 16-bit field. -/
def lowByte (w : BitVec 16) : Byte := w.extractLsb' 0 8

/-- The 16-bit field of two bytes, most significant first (R143). -/
def wordOf (hi lo : Byte) : BitVec 16 := hi ++ lo

/-- A number as a byte. -/
def byteOf (n : Nat) : Byte := BitVec.ofNat 8 n

/-- One bit at a position of a byte. -/
def bitAt (pos : Nat) (b : Bool) : Byte := if b then 1#8 <<< pos else 0

/-- The six bytes of a timebase value, most significant first (R143, R144). -/
def timeBytes (t : Time) : List Byte :=
  [t.extractLsb' 40 8, t.extractLsb' 32 8, t.extractLsb' 24 8,
   t.extractLsb' 16 8, t.extractLsb' 8 8, t.extractLsb' 0 8]

/-- The bits of a byte, bit 7 first (R143). -/
def byteBits (b : Byte) : List Bool :=
  [b.getLsbD 7, b.getLsbD 6, b.getLsbD 5, b.getLsbD 4, b.getLsbD 3, b.getLsbD 2, b.getLsbD 1, b.getLsbD 0]

/-- The byte of eight bits, bit 7 first; bits that are missing are 0. -/
def byteOfBits (bits : List Bool) : Byte :=
  (List.range 8).foldl (fun acc k => acc ||| bitAt (7 - k) (bits.getD k false)) 0

/-- Byte k of a stream of bits, byte 0 first (R132). -/
def streamByte (bits : List Bool) (k : Nat) : Byte := byteOfBits ((bits.drop (8 * k)).take 8)

/-- One bit through the register of R133. -/
def checkBit (r : Byte) (b : Bool) : Byte :=
  let shifted := r <<< 1
  if r.getLsbD 7 = b then shifted else shifted ^^^ 0x07#8

/-- The check byte of a list of bytes (R133). -/
def checkByte (bytes : List Byte) : Byte :=
  (bytes.flatMap byteBits).foldl checkBit 0xFF#8

end Sys2Proof
end

