-- ==== Sys2Proof/Machine/State.lean ====
section
/-! DEFINITION. The state of the CJ448 as plain data, and the state right after device reset. -/

namespace Sys2Proof.Machine

/-- The policy of a source and of its tickets (R1). -/
inductive Policy where
  | single
  | each
deriving DecidableEq, Repr

/-- The sense of a line source (R1, R5). -/
inductive Sense where
  | rising
  | falling
  | both
  | high
  | low
deriving DecidableEq, Repr

/-- The configuration record of one source (R1). -/
structure SourceRecord where
  level : Fin 16
  policy : Policy
  eligible : HostSet
  preferred : Option Port
  window : BitVec 16
  serviceLimit : BitVec 12
  retryLimit : Fin 8
  sense : Sense
  filter : Fin 16
deriving DecidableEq, Repr

/-- What the Source Front End keeps for one input line (R4). -/
structure Line where
  /-- the recognised level; true is high -/
  recognised : Bool
  /-- the run count -/
  run : Nat
  /-- the first sample after reset has been taken -/
  sampled : Bool
  /-- the model's own: the sample of the advance in hand is still to be taken (log 6) -/
  sampleDue : Bool
deriving DecidableEq, Repr

/-- A deferral: the deferred count and the deferral stamp (R10). -/
structure Deferral where
  count : Nat
  stamp : Time
deriving DecidableEq, Repr

/-- A handle: a slot with a generation (R22). -/
structure Handle where
  slot : SlotId
  generation : Fin 16
deriving DecidableEq, Repr

/-- An affinity reservation: the preferred host and the affinity expiry (R46). -/
structure Reservation where
  host : Port
  expiry : Time
deriving DecidableEq, Repr

/-- The state of a live ticket with the fields that only that state has (R21, R23). -/
inductive Standing where
  | waiting
  | held (holder : Port)
  | spread (owed claimed : HostSet) (collection : Option Time)
deriving DecidableEq, Repr

/-- A live ticket (R21). The eligible set of a ticket of source 48 is not used (R2). -/
structure Ticket where
  source : SourceId
  level : Fin 16
  policy : Policy
  eligible : HostSet
  serviceLimit : BitVec 12
  retryLimit : Fin 8
  reservation : Option Reservation
  count : Nat
  payload : Option (BitVec 16)
  stamp : Time
  lapses : Nat
  standing : Standing
deriving DecidableEq, Repr

/-- A slot of the pool: its generation, and its ticket unless the slot is FREE (R20, R22). -/
structure Slot where
  generation : Fin 16
  ticket : Option Ticket
deriving DecidableEq, Repr

/-- The Ticket Pool with the deferrals of the sources (R10, R20, R26). -/
structure Pool where
  slots : Vector Slot 64
  /-- the creation order, oldest first -/
  order : List SlotId
  deferrals : Vector (Option Deferral) 49
deriving DecidableEq, Repr

/-- The state of a stack entry (R62). -/
inductive EntryState where
  | active
  | lapsed
deriving DecidableEq, Repr

/-- An entry of a service stack (R62). -/
structure Entry where
  handle : Handle
  source : SourceId
  level : Fin 16
  state : EntryState
  expiry : Option Time
  extensions : Nat
deriving DecidableEq, Repr

/-- The status codes of R143. -/
inductive Status where
  | none
  | ok
  | empty
  | gone
  | nothingHeld
  | mismatch
  | tooLate
  | stackFull
  | extendLimit
  | noLimit
  | notAttached
  | notSupervisor
  | tokenHeld
  | badArg
  | disabled
  | busy
  | notOwner
  | poolFull
  | sourceFull
  | queueEmpty
  | badCheck
  | frameError
  | unknown
deriving DecidableEq, Repr

/-- The port flags of a response (R136). -/
structure PortFlags where
  attached : Bool
  token : Bool
  offer : Bool
  flushed : Bool
  ejected : Bool
  depth : Nat
deriving DecidableEq, Repr

/-- A response (R131, R143). -/
structure Response where
  status : Status
  tag : Byte
  data : Vector Byte 12
  flags : PortFlags
  check : Byte
deriving DecidableEq, Repr

/-- The progress of a port's transaction (R131, R132). -/
inductive Progress where
  /-- after reset, before the select has been seen high -/
  | awaitHigh
  /-- the select is high -/
  | idle
  /-- the select is low: the captured slot content, and the SDI bits of the rising edges so far, whose
  number is the count of edges -/
  | shifting (captured : Response) (received : List Bool)
  /-- the select is low after a fall that came too soon and was not seen -/
  | unseen
deriving DecidableEq, Repr

/-- The serial side of a host port (R131, R132). -/
structure Link where
  /-- the response slot -/
  slot : Response
  progress : Progress
  /-- timebase advances since the last select rise; 2 stands for two or more -/
  sinceRise : Nat
  /-- the model's own: the bits SDO sent in the transaction that ended last (log 3) -/
  shiftedOut : List Bool
deriving DecidableEq, Repr

/-- The two states of a port (R131). -/
inductive PortState where
  | detached
  | attached
deriving DecidableEq, Repr

/-- A host port with its host's threshold, service stack and attention line (R43, R63, R65, R131). -/
structure HostPort where
  state : PortState
  threshold : Fin 16
  /-- the service stack, top first -/
  stack : List Entry
  flushed : Bool
  ejected : Bool
  /-- the ATTN pin is driven low -/
  attn : Bool
  link : Link
deriving DecidableEq, Repr

/-- The mode of a timer (R108). -/
inductive TimerMode where
  | off
  | periodic
  | oneshot
  | chained
deriving DecidableEq, Repr

/-- The prescale of a timer, in µs (R108). -/
inductive Prescale where
  | by1
  | by16
  | by256
  | by4096
deriving DecidableEq, Repr

/-- The record of one timer (R108). -/
structure Timer where
  mode : TimerMode
  prescale : Prescale
  reload : BitVec 16
  count : BitVec 16
  running : Bool
  owner : Option Port
  gate : Option LineId
  chain : TimerId
  /-- the model's own: the step of the boundary just reached is still to be taken (logs 6 and 7) -/
  stepDue : Bool
deriving DecidableEq, Repr

/-- A fault record (R126). -/
inductive FaultRecord where
  | abandoned (source : SourceId) (handle : Handle) (lapses : Nat) (stamp : Time)
  | shareLapsed (source : SourceId) (handle : Handle) (host : Port) (stamp : Time)
  | hostReleased (host : Port) (entries : Nat) (stamp : Time)
deriving DecidableEq, Repr

/-- The fault queue, oldest record first, with its overflow indicator (R126, R127). -/
structure FaultQueue where
  records : List FaultRecord
  overflow : Bool
deriving DecidableEq, Repr

/-- The state of the part, and the queue of commands that wait (log 1). -/
structure State where
  timebase : Time
  sources : Vector SourceRecord 48
  /-- the level of source 48, its one configurable field (R2) -/
  faultLevel : Fin 16
  lines : Vector Line 32
  pool : Pool
  ports : Vector HostPort 4
  timers : Vector Timer 8
  /-- the holder of the supervisor token; none while it is vacant (R118) -/
  token : Option Port
  faults : FaultQueue
  /-- the model's own: the commands that wait, first in, first out -/
  pending : List Instr
deriving DecidableEq, Repr

/-- The part has no fault that stops it: every command is answered and every event is taken (log 11). -/
inductive Fault where
deriving DecidableEq, Repr

/-- Why a step has no meaning. -/
inductive Refusal where
  /-- A row that the model gives no meaning yet. No arm of `exec` raises it: every row has its meaning.
  It would be safe, since the model would stop where the part goes on. -/
  | notModelled (mnemonic : String)
deriving DecidableEq, Repr

/-- The record of every source after device reset (R3). -/
def SourceRecord.reset : SourceRecord :=
  { level := 0, policy := .single, eligible := 0, preferred := none, window := 0, serviceLimit := 0,
    retryLimit := 1, sense := .rising, filter := 0 }

/-- The flags of a DETACHED port with no notice (R131, R136). -/
def PortFlags.reset : PortFlags :=
  { attached := false, token := false, offer := false, flushed := false, ejected := false, depth := 0 }

/-- The NONE response a port holds after device reset (R131, R143). -/
def Response.reset : Response :=
  { status := .none, tag := 0, data := Vector.replicate 12 0, flags := .reset,
    check := checkByte (List.replicate 15 0) }

/-- A port after device reset (R43, R65, R78, R131). -/
def HostPort.reset : HostPort :=
  { state := .detached, threshold := 15, stack := [], flushed := false, ejected := false, attn := false,
    link := { slot := .reset, progress := .awaitHigh, sinceRise := 2, shiftedOut := [] } }

/-- A timer after device reset (R108). -/
def Timer.reset : Timer :=
  { mode := .off, prescale := .by1, reload := 1, count := 0, running := false, owner := none,
    gate := none, chain := 0, stepDue := false }

/-- The part right after device reset (R3, R37, R105, R108, R118, R126, R131). -/
def State.reset : State :=
  { timebase := 0
    sources := Vector.replicate 48 .reset
    faultLevel := 0
    lines := Vector.replicate 32 { recognised := false, run := 0, sampled := false, sampleDue := false }
    pool := { slots := Vector.replicate 64 { generation := 0, ticket := none }
              order := []
              deferrals := Vector.replicate 49 none }
    ports := Vector.replicate 4 .reset
    timers := Vector.replicate 8 .reset
    token := none
    faults := { records := [], overflow := false }
    pending := [] }

end Sys2Proof.Machine
end

