-- ==== Sys2Proof/Machine/Ops.lean ====
section
/-! DEFINITION. The operations that the commands and events share: reading and writing one record of
the state, the occurrence rule, the Ticket Pool with its slot arbiter, the re-arm check and the append
to the fault queue. -/

namespace Sys2Proof.Machine

/-! ## One record of the state -/

/-- The port of host h. -/
def State.port (s : State) (h : Port) : HostPort := look s.ports h

/-- The state with the port of host h replaced. -/
def State.setPort (s : State) (h : Port) (p : HostPort) : State := { s with ports := place s.ports h p }

/-- The state with the pool replaced. -/
def State.setPool (s : State) (p : Pool) : State := { s with pool := p }

/-- The slot with number i. -/
def State.slotAt (s : State) (i : SlotId) : Slot := look s.pool.slots i

/-- The state with slot i replaced. -/
def State.setSlot (s : State) (i : SlotId) (x : Slot) : State :=
  s.setPool { s.pool with slots := place s.pool.slots i x }

/-- The live ticket in slot i; none when the slot is FREE. -/
def State.ticketAt (s : State) (i : SlotId) : Option Ticket := (s.slotAt i).ticket

/-- The state with the ticket in slot i replaced; the slot keeps its generation. -/
def State.setTicket (s : State) (i : SlotId) (t : Ticket) : State :=
  s.setSlot i { s.slotAt i with ticket := some t }

/-- The state with the creation order replaced. -/
def State.setOrder (s : State) (o : List SlotId) : State := s.setPool { s.pool with order := o }

/-- The deferral of a source, if it is deferred. -/
def State.deferralOf (s : State) (src : SourceId) : Option Deferral := look s.pool.deferrals src

/-- The state with the deferral of a source replaced. -/
def State.setDeferral (s : State) (src : SourceId) (d : Option Deferral) : State :=
  s.setPool { s.pool with deferrals := place s.pool.deferrals src d }

/-- The record of a line. -/
def State.line (s : State) (n : LineId) : Line := look s.lines n

/-- The state with the record of a line replaced. -/
def State.setLine (s : State) (n : LineId) (l : Line) : State := { s with lines := place s.lines n l }

/-- The record of a timer. -/
def State.timer (s : State) (n : TimerId) : Timer := look s.timers n

/-- The state with the record of a timer replaced. -/
def State.setTimer (s : State) (n : TimerId) (t : Timer) : State := { s with timers := place s.timers n t }

/-- The state with a host's service stack replaced. -/
def State.setStack (s : State) (h : Port) (es : List Entry) : State :=
  s.setPort h { s.port h with stack := es }

/-- Port h is ATTACHED. -/
def State.attached (s : State) (h : Port) : Bool := decide ((s.port h).state = .attached)

/-! ## Sources -/

/-- Source 48, the fault source (R2). -/
def faultSource : SourceId := 48

/-- Sources 40 to 47 are the posted sources. -/
def SourceId.posted (src : SourceId) : Bool := decide (40 ≤ src.val ∧ src.val < 48)

/-- The line of a line source, sources 0 to 31. -/
def SourceId.line (src : SourceId) : Option LineId :=
  if h : src.val < 32 then some ⟨src.val, h⟩ else none

/-- Sources 32 to 39 are the timer sources. -/
def SourceId.isTimer (src : SourceId) : Bool := decide (32 ≤ src.val ∧ src.val < 40)

/-- The line source of a line. -/
def lineSource (n : LineId) : SourceId := ⟨n.val, by omega⟩

/-- The timer source of a timer: 32 + n. -/
def timerSource (n : TimerId) : SourceId := ⟨32 + n.val, by omega⟩

/-- The active level of a level-sensed sense; none for an edge sense (R5). -/
def Sense.activeLevel : Sense → Option Bool
  | .rising => none
  | .falling => none
  | .both => none
  | .high => some true
  | .low => some false

/-- The set that holds the present token holder, or the empty set (R2). -/
def State.tokenSet (s : State) : HostSet :=
  match s.token with
  | some h => HostSet.only h
  | none => 0

/-- The record of the fault source as R2 and R19 give it, from its level and the token. -/
def State.faultRecordOf (s : State) : SourceRecord :=
  { level := s.faultLevel, policy := .single, eligible := s.tokenSet, preferred := none, window := 0,
    serviceLimit := 0, retryLimit := 7, sense := .rising, filter := 0 }

/-- The present configuration record of a source (R1, R2). -/
def State.config (s : State) (src : SourceId) : SourceRecord :=
  if h : src.val < 48 then look s.sources ⟨src.val, h⟩ else s.faultRecordOf

/-- The state with the record of a source replaced; of source 48 the level alone is kept (R2). -/
def State.setConfig (s : State) (src : SourceId) (r : SourceRecord) : State :=
  if h : src.val < 48 then { s with sources := place s.sources ⟨src.val, h⟩ r }
  else { s with faultLevel := r.level }

/-- A level-sensed line source, by its present record, whose line is recognised at its active level. -/
def State.lineActive (s : State) (src : SourceId) : Bool :=
  match SourceId.line src, (s.config src).sense.activeLevel with
  | some n, some a => (s.line n).recognised == a
  | _, _ => false

/-- A level-sensed line source, by its present record, whose line is recognised inactive. -/
def State.lineInactive (s : State) (src : SourceId) : Bool :=
  match SourceId.line src, (s.config src).sense.activeLevel with
  | some n, some a => (s.line n).recognised != a
  | _, _ => false

/-! ## What the pool holds -/

/-- The slot is FREE (R20). -/
def State.isFree (s : State) (i : SlotId) : Bool := (s.ticketAt i).isNone

/-- The lowest-numbered free slot (R20). -/
def State.lowestFree (s : State) : Option SlotId := (List.finRange 64).find? s.isFree

/-- The number of free slots (R36). -/
def State.freeSlots (s : State) : Nat := (List.finRange 64).countP s.isFree

/-- The number of live tickets. -/
def State.liveTickets (s : State) : Nat := 64 - s.freeSlots

/-- Slot i holds a live ticket of the source. -/
def State.holdsSource (s : State) (src : SourceId) (i : SlotId) : Bool :=
  match s.ticketAt i with
  | some t => t.source == src
  | none => false

/-- The non-FREE count of a source (R32). -/
def State.liveCount (s : State) (src : SourceId) : Nat := (List.finRange 64).countP (s.holdsSource src)

/-- Slot i holds a WAITING ticket of the source. -/
def State.waitsFor (s : State) (src : SourceId) (i : SlotId) : Bool :=
  match s.ticketAt i with
  | some t => t.source == src && t.standing == .waiting
  | none => false

/-- The WAITING tickets of a source in creation order (R32). -/
def State.waitingTickets (s : State) (src : SourceId) : List SlotId := s.pool.order.filter (s.waitsFor src)

/-- The WAITING ticket of a source, the oldest of them for a posted source (R19, R32). -/
def State.waitingTicket (s : State) (src : SourceId) : Option SlotId := s.pool.order.find? (s.waitsFor src)

/-- The number of deferred sources (R36). -/
def State.deferredSources (s : State) : Nat :=
  (List.finRange 49).countP fun src => (s.deferralOf src).isSome

/-- The handle of the ticket in slot i (R22). -/
def State.handleOf (s : State) (i : SlotId) : Handle := { slot := i, generation := (s.slotAt i).generation }

/-- The live ticket that a handle names (R22). -/
def State.named (s : State) (hd : Handle) : Option Ticket :=
  if (s.slotAt hd.slot).generation = hd.generation then s.ticketAt hd.slot else none

/-- Counts saturate at 255 (R24). -/
def saturate (n : Nat) : Nat := min n Config.maxCount

/-- The instant that lies a service limit ahead, if the limit is not 0 (R52, R54, R76). -/
def expiryAfter (now : Time) (limit : BitVec 12) : Option Time :=
  if limit = 0 then none else some (now + BitVec.ofNat 48 (Config.limitUnit * limit.toNat))

/-! ## Creation, freeing and grants -/

/-- The affinity reservation a ticket of a record is created with (R46). -/
def State.reservationFor (s : State) (r : SourceRecord) (stamp : Time) : Option Reservation :=
  match r.policy, r.preferred with
  | .single, some h =>
    if r.window ≠ 0 ∧ s.attached h ∧ (s.timebase - stamp).toNat < r.window.toNat then
      some { host := h, expiry := stamp + r.window.setWidth 48 }
    else none
  | _, _ => none

/-- The new ticket of a source: a snapshot of its record as it stands (R10, R34, R99). -/
def State.newTicket (s : State) (src : SourceId) (count : Nat) (stamp : Time)
    (payload : Option (BitVec 16)) : Ticket :=
  let r := s.config src
  { source := src, level := r.level, policy := r.policy
    eligible := if src = faultSource then 0 else r.eligible
    serviceLimit := r.serviceLimit, retryLimit := r.retryLimit
    reservation := s.reservationFor r stamp
    count := count, payload := payload, stamp := stamp, lapses := 0, standing := .waiting }

/-- A new ticket of a source in slot i, at the young end of the creation order (R10, R26). -/
def State.createTicket (s : State) (i : SlotId) (src : SourceId) (count : Nat) (stamp : Time)
    (payload : Option (BitVec 16)) : State :=
  (s.setTicket i (s.newTicket src count stamp payload)).setOrder (s.pool.order ++ [i])

/-- The deferred source the arbiter serves: highest present level, then lowest number (R33). -/
def State.arbiter (s : State) : Option SourceId :=
  (List.finRange 49).foldl
    (fun best src =>
      if (s.deferralOf src).isSome then
        match best with
        | none => some src
        | some b => if (s.config b).level < (s.config src).level then some src else some b
      else best)
    none

/-- The grant of a freed slot to a deferred source, if any source is deferred (R33, R34). -/
def State.grant (s : State) (i : SlotId) : State :=
  match s.arbiter with
  | none => s
  | some src =>
    match s.deferralOf src with
    | none => s
    | some d => (s.createTicket i src d.count d.stamp none).setDeferral src none

/-- Steps 1 to 3 of R31: the slot becomes FREE, its generation advances, the order closes up. -/
def State.clearSlot (s : State) (i : SlotId) : State :=
  (s.setSlot i { generation := (s.slotAt i).generation + 1, ticket := none }).setOrder (s.pool.order.erase i)

/-- A live ticket becomes FREE, with the grant that follows (R31). A FREE slot stays as it is. -/
def State.freeTicket (s : State) (i : SlotId) : State :=
  match s.ticketAt i with
  | none => s
  | some _ => (s.clearSlot i).grant i

/-! ## Occurrences -/

/-- The six cases of the occurrence rule (R9). -/
inductive OccurrenceCase where
  | discarded
  | posted
  | coalesced (i : SlotId)
  | counted (d : Deferral)
  | created (i : SlotId)
  | deferred
deriving DecidableEq, Repr

/-- The number of a case in R9, as the TRIGGER response gives it. -/
def OccurrenceCase.number : OccurrenceCase → Nat
  | .discarded => 1
  | .posted => 2
  | .coalesced _ => 3
  | .counted _ => 4
  | .created _ => 5
  | .deferred => 6

/-- The case of R9 that takes an occurrence of a source. -/
def State.occurrenceCase (s : State) (src : SourceId) : OccurrenceCase :=
  if (s.config src).level = 0 then .discarded
  else if SourceId.posted src then .posted
  else
    match s.waitingTicket src with
    | some i => .coalesced i
    | none =>
      match s.deferralOf src with
      | some d => .counted d
      | none =>
        match s.lowestFree with
        | some i => .created i
        | none => .deferred

/-- Coalescing: the count of the ticket in slot i rises by one (case 3 of R9). -/
def State.coalesce (s : State) (i : SlotId) : State :=
  match s.ticketAt i with
  | none => s
  | some t => s.setTicket i { t with count := saturate (t.count + 1) }

/-- One occurrence of a source (R9). The payload is that of a POST and is used in case 2 alone; a POST
that the limit or the pool refuses is answered before it is an occurrence (R98). -/
def State.occurrence (s : State) (src : SourceId) (payload : BitVec 16 := 0) : State :=
  match s.occurrenceCase src with
  | .discarded => s
  | .posted =>
    match s.lowestFree with
    | some i => s.createTicket i src 1 s.timebase (some payload)
    | none => s
  | .coalesced i => s.coalesce i
  | .counted d => s.setDeferral src (some { d with count := saturate (d.count + 1) })
  | .created i => s.createTicket i src 1 s.timebase none
  | .deferred => s.setDeferral src (some { count := 1, stamp := s.timebase })

/-- The pending work of a source is withdrawn: its WAITING ticket is freed, or its deferral is cleared
(R7, R13, R129). -/
def State.withdraw (s : State) (src : SourceId) : State :=
  (match s.waitingTicket src with
   | some i => s.freeTicket i
   | none => s).setDeferral src none

/-- A disabled source loses every WAITING ticket, oldest first, and its deferral (R14). -/
def State.disable (s : State) (src : SourceId) : State :=
  ((s.waitingTickets src).foldl State.freeTicket s).setDeferral src none

/-- The re-arm check of a source (R73, R74). -/
def State.rearm (s : State) (src : SourceId) : State :=
  if (s.lineActive src || (src == faultSource && !s.faults.records.isEmpty)) && s.liveCount src == 0 then
    s.occurrence src
  else s

/-- A ticket is freed and the re-arm check of its source follows (R69, R70). -/
def State.settle (s : State) (i : SlotId) (src : SourceId) : State := (s.freeTicket i).rearm src

/-- A record is appended to the fault queue, or dropped with the overflow indicator set, and is an
occurrence of source 48 either way (R127). -/
def State.appendFault (s : State) (r : FaultRecord) : State :=
  let q := s.faults
  let q' : FaultQueue :=
    if q.records.length < Config.faultDepth then { q with records := q.records ++ [r] }
    else { q with overflow := true }
  State.occurrence { s with faults := q' } faultSource

/-! ## Rounds of EACH tickets -/

/-- Host h leaves the owed and claimed sets of the SPREAD ticket in slot i, which settles if nobody is
owed any more (R70, R86). -/
def State.leaveRound (s : State) (h : Port) (i : SlotId) : State :=
  match s.ticketAt i with
  | none => s
  | some t =>
    match t.standing with
    | .spread owed claimed c =>
      if HostSet.without owed h = 0 then s.settle i t.source
      else s.setTicket i
        { t with standing := .spread (HostSet.without owed h) (HostSet.without claimed h) c }
    | _ => s

end Sys2Proof.Machine
end

