-- ==== Sys2Proof/Machine/Offers.lean ====
section
/-! DEFINITION. The pending order, candidates, offers and attention lines (R28, R40 to R43). -/

namespace Sys2Proof.Machine

/-- The service level of a host: the level of its top entry, or 0 (R64). -/
def State.serviceLevel (s : State) (h : Port) : Fin 16 :=
  match (s.port h).stack with
  | [] => 0
  | e :: _ => e.level

/-- The ticket in slot i is WAITING or SPREAD, at the level (R28). -/
def State.pendingAt (s : State) (level : Nat) (i : SlotId) : Bool :=
  match s.ticketAt i with
  | none => false
  | some t =>
    match t.standing with
    | .held _ => false
    | _ => t.level.val == level

/-- The pending order: highest level first, and oldest first within a level (R28). -/
def State.pendingOrder (s : State) : List SlotId :=
  (List.range 16).reverse.flatMap fun level => s.pool.order.filter (s.pendingAt level)

/-- A ticket other than the one in slot i is SPREAD for the source (R56). -/
def State.otherRound (s : State) (i : SlotId) (src : SourceId) : Bool :=
  s.pool.order.any fun j =>
    j != i &&
    match s.ticketAt j with
    | none => false
    | some t =>
      t.source == src &&
      match t.standing with
      | .spread _ _ _ => true
      | _ => false

/-- The hosts that may be offered a WAITING ticket; for source 48 the token holder alone (R2, R40). -/
def State.eligibleFor (s : State) (t : Ticket) : HostSet :=
  if t.source = faultSource then s.tokenSet else t.eligible

/-- Condition 2 of R40: h may take the ticket in its present state. -/
def State.entitled (s : State) (h : Port) (t : Ticket) : Bool :=
  match t.standing with
  | .waiting => HostSet.has (s.eligibleFor t) h
  | .held _ => false
  | .spread owed claimed _ => HostSet.has owed h && !HostSet.has claimed h

/-- The ticket in slot i is a candidate for host h: the six conditions of R40. -/
def State.candidate (s : State) (h : Port) (i : SlotId) : Bool :=
  match s.ticketAt i with
  | none => false
  | some t =>
    s.attached h
    && s.entitled h t
    && (decide ((s.port h).threshold < t.level) && decide (s.serviceLevel h < t.level))
    && decide ((s.port h).stack.length < Config.stackDepth)
    && (match t.reservation with
        | none => true
        | some r => r.host == h)
    && !(t.policy == .each && t.standing == .waiting && s.otherRound i t.source)

/-- The offer of host h: the first candidate in the pending order (R41). -/
def State.offer (s : State) (h : Port) : Option SlotId := s.pendingOrder.find? (s.candidate h)

/-- Every ATTN line follows its host's offer (R42, R43). -/
def State.recompute (s : State) : State :=
  { s with ports := fill fun h => { s.port h with attn := (s.offer h).isSome } }

end Sys2Proof.Machine
end

