-- ==== Sys2Proof/Machine/Deadlines.lean ====
section
/-! DEFINITION. The return sequence, merges, lapses, collection and affinity expiries, the timer steps,
releases and departures (R47, R48, R79 to R91, R109 to R111, R117, R123, R141). -/

namespace Sys2Proof.Machine

/-! ## Returns and merges -/

/-- Case 1 of R83: the condition a returned ticket of the source stood for has gone. -/
def State.conditionGone (s : State) (src : SourceId) : Bool :=
  s.lineInactive src || (src == faultSource && s.faults.records.isEmpty)

/-- The ticket in slot r stands before the one in slot w in the creation order. -/
def State.olderThan (s : State) (r w : SlotId) : Bool :=
  decide (s.pool.order.idxOf r < s.pool.order.idxOf w)

/-- The survivor of a merge of returned ticket `tr` into `tw` (R84). -/
def mergedTicket (tr tw : Ticket) (rOlder : Bool) : Ticket :=
  let lapses := if rOlder then tr.lapses else tw.lapses
  { tw with
    count := saturate (tr.count + tw.count)
    stamp := if rOlder then tr.stamp else tw.stamp
    lapses := if tw.policy = .each then 0 else min lapses (tw.retryLimit.val - 1) }

/-- The creation order after a merge, with w in the older place and r still to leave it (R27). -/
def mergedOrder (order : List SlotId) (r w : SlotId) (rOlder : Bool) : List SlotId :=
  if rOlder then (order.erase w).flatMap fun j => if j = r then [w, r] else [j] else order

/-- Returned ticket r merges into WAITING ticket w of its source, and r becomes FREE (R84). -/
def State.mergeInto (s : State) (r w : SlotId) : State :=
  match s.ticketAt r, s.ticketAt w with
  | some tr, some tw =>
    let rOlder := s.olderThan r w
    ((s.setTicket w (mergedTicket tr tw rOlder)).setOrder (mergedOrder s.pool.order r w rOlder)).freeTicket r
  | _, _ => s

/-- The WAITING ticket that a returned ticket of the source joins; none for a posted source (case 2 of R83). -/
def State.mergeTarget (s : State) (src : SourceId) : Option SlotId :=
  if SourceId.posted src then none else s.waitingTicket src

/-- The return sequence of a SINGLE ticket taken back from its holder (R83). -/
def State.returnTicket (s : State) (i : SlotId) : State :=
  match s.ticketAt i with
  | none => s
  | some t =>
    if s.conditionGone t.source then s.freeTicket i
    else
      match s.mergeTarget t.source with
      | some w => s.mergeInto i w
      | none =>
        match s.deferralOf t.source with
        | some d =>
          (s.setTicket i { t with standing := .waiting, count := saturate (t.count + d.count) }).setDeferral
            t.source none
        | none => s.setTicket i { t with standing := .waiting }

/-! ## Expiries -/

/-- A SINGLE ticket lapses: it is abandoned at its retry limit, and returned below it (R81, R82). -/
def State.lapseSingle (s : State) (i : SlotId) (t : Ticket) : State :=
  if t.retryLimit.val ≤ t.lapses + 1 then
    (s.freeTicket i).appendFault (.abandoned t.source (s.handleOf i) (t.lapses + 1) s.timebase)
  else (s.setTicket i { t with lapses := t.lapses + 1 }).returnTicket i

/-- Host h lapses on its share of the SPREAD ticket in slot i (R86). -/
def State.lapseShare (s : State) (h : Port) (i : SlotId) (t : Ticket) : State :=
  (s.leaveRound h i).appendFault (.shareLapsed t.source (s.handleOf i) h s.timebase)

/-- The ticket of an entry that has just lapsed is dealt with (R80). -/
def State.lapseTicket (s : State) (h : Port) (hd : Handle) : State :=
  match s.named hd with
  | none => s
  | some t =>
    match t.standing with
    | .held _ => s.lapseSingle hd.slot t
    | .spread _ _ _ => s.lapseShare h hd.slot t
    | .waiting => s

/-- The entry of host h at a place counted from the top of its stack. -/
def State.entryAt (s : State) (h : Port) (k : Fin 4) : Option Entry := (s.port h).stack[k.val]?

/-- The service expiry of an ACTIVE entry: it becomes LAPSED and its ticket is dealt with (R80). -/
def State.lapseEntry (s : State) (h : Port) (k : Fin 4) : State :=
  match s.entryAt h k with
  | none => s
  | some e =>
    (s.setStack h ((s.port h).stack.set k.val { e with state := .lapsed })).lapseTicket h e.handle

/-- The collection expiry of the SPREAD ticket in slot i (R87). -/
def State.collect (s : State) (i : SlotId) : State :=
  match s.ticketAt i with
  | none => s
  | some t =>
    match t.standing with
    | .spread owed claimed _ =>
      let kept := owed &&& claimed
      let s' :=
        if kept = 0 then s.settle i t.source
        else s.setTicket i { t with standing := .spread kept claimed none }
      (HostSet.members (owed &&& ~~~ claimed)).foldl
        (fun st h => st.appendFault (.shareLapsed t.source (s.handleOf i) h s.timebase)) s'
    | _ => s

/-- The reservation of the ticket in slot i ends (R47). -/
def State.endReservation (s : State) (i : SlotId) : State :=
  match s.ticketAt i with
  | none => s
  | some t => s.setTicket i { t with reservation := none }

/-! ## Timers -/

/-- The prescale in µs (R108). -/
def Prescale.steps : Prescale → Nat
  | .by1 => 1
  | .by16 => 16
  | .by256 => 256
  | .by4096 => 4096

/-- The timebase stands at a multiple of the prescale (R109). -/
def atBoundary (now : Time) (p : Prescale) : Bool := decide (now.toNat % p.steps = 0)

/-- The gate of a timer lets it step: it has none, or its line is recognised high (R109). -/
def State.gateOpen (s : State) (t : Timer) : Bool :=
  match t.gate with
  | none => true
  | some g => (s.line g).recognised

/-- The timers that take a chained step at an expiry of timer n (R110). -/
def chainedTo (ts : Vector Timer 8) (n : TimerId) : List TimerId :=
  (List.finRange 8).filter fun m =>
    (look ts m).running && (look ts m).mode == .chained && (look ts m).chain == n

/-- An expired timer reloads or stops (steps 3 and 4 of R111). -/
def Timer.afterExpiry (t : Timer) : Timer :=
  match t.mode with
  | .periodic => { t with count := t.reload }
  | .chained => { t with count := t.reload }
  | _ => { t with count := 0, running := false, owner := none }

/-- One step of timer n in the Timer Bank, with its expiry and the chained steps that follow. Beside the
bank it gives the timers that expired, in order. A chain of eight timers is eight steps deep (R110, R111). -/
def stepBank (depth : Nat) (n : TimerId) (ts : Vector Timer 8) : Vector Timer 8 × List TimerId :=
  match depth with
  | 0 => (ts, [])
  | d + 1 =>
    let t := look ts n
    let t' := { t with count := t.count - 1, stepDue := false }
    if t'.count ≠ 0 then (place ts n t', [])
    else
      let below := (chainedTo ts n).foldl
        (fun (acc : Vector Timer 8 × List TimerId) m =>
          let r := stepBank d m acc.1
          (r.1, acc.2 ++ r.2))
        (place ts n t', [])
      (place below.1 n (look below.1 n).afterExpiry, n :: below.2)

/-- A list with the members that a preference names first, in its order (log 6). -/
def preferring (order : List TimerId) (xs : List TimerId) : List TimerId :=
  (order.eraseDups.filter fun x => xs.contains x) ++ xs.filter fun x => !order.contains x

/-- A due step of timer n is taken, with the occurrences of every timer that expires by it (R109, R111). R111
makes each occurrence of a chain an event of its own. That they are all taken here together, so that no other
event of the advance and no other timer's occurrence comes between them, is the model's choice (log 6,
DESIGN CHOICE). -/
def State.stepTimer (s : State) (n : TimerId) (chainOrder : List TimerId) : State :=
  if s.gateOpen (s.timer n) then
    let r := stepBank 8 n s.timers
    (preferring chainOrder r.2).foldl (fun st m => st.occurrence (timerSource m)) { s with timers := r.1 }
  else s.setTimer n { s.timer n with stepDue := false }

/-! ## Departures -/

/-- The reservation of every ticket that prefers host h ends (R48). -/
def State.endReservationsOf (s : State) (h : Port) : State :=
  s.setPool { s.pool with
    slots := fill fun i =>
      let x := s.slotAt i
      { x with ticket := x.ticket.map fun t =>
          match t.reservation with
          | some r => if r.host = h then { t with reservation := none } else t
          | none => t } }

/-- What a release does with the ticket of a removed entry (R89). -/
def State.releaseEntry (s : State) (h : Port) (e : Entry) : State :=
  match e.state with
  | .lapsed => s
  | .active =>
    match s.named e.handle with
    | none => s
    | some t =>
      match t.standing with
      | .held _ => s.returnTicket e.handle.slot
      | .spread _ _ _ => s.leaveRound h e.handle.slot
      | .waiting => s

/-- The stack of host h is emptied from the top, one entry at a time (R89). -/
def State.releaseStack (s : State) (h : Port) (es : List Entry) : State :=
  match es with
  | [] => s.setStack h []
  | e :: rest => ((s.setStack h rest).releaseEntry h e).releaseStack h rest

/-- Host h is owed the SPREAD ticket in slot i and has not claimed it. -/
def State.owesUnclaimed (s : State) (h : Port) (i : SlotId) : Bool :=
  match s.ticketAt i with
  | none => false
  | some t =>
    match t.standing with
    | .spread owed claimed _ => HostSet.has owed h && !HostSet.has claimed h
    | _ => false

/-- Host h leaves every round it has not claimed, oldest ticket first (R90). -/
def State.dropUnclaimed (s : State) (h : Port) : State :=
  (s.pool.order.filter (s.owesUnclaimed h)).foldl (fun st i => st.leaveRound h i) s

/-- The number of ACTIVE entries on the stack of host h. -/
def State.activeEntries (s : State) (h : Port) : Nat :=
  (s.port h).stack.countP fun e => e.state == .active

/-- The release of host h (R89 to R91). -/
def State.release (s : State) (h : Port) : State :=
  let dropped := (s.releaseStack h (s.port h).stack).dropUnclaimed h
  if s.activeEntries h = 0 then dropped
  else dropped.appendFault (.hostReleased h (s.activeEntries h) s.timebase)

/-- A timer that stops with its count kept (R114, R117). -/
def Timer.stopped (t : Timer) : Timer := { t with running := false, owner := none, stepDue := false }

/-- A running timer that host h owns. -/
def Timer.ownedBy (t : Timer) (h : Port) : Bool := t.running && t.owner == some h

/-- The number of running timers that host h owns. -/
def State.ownedTimers (s : State) (h : Port) : Nat :=
  (List.finRange 8).countP fun n => (s.timer n).ownedBy h

/-- Every running timer that host h owns stops (R117). -/
def State.stopTimersOf (s : State) (h : Port) : State :=
  { s with timers := fill fun n =>
      let t := s.timer n
      if t.ownedBy h then t.stopped else t }

/-- What a DETACH of port h and an EJECT of it have in common: the reservations end, the work is
released, the timers stop, and the port becomes DETACHED (R123, R141). A ticket that the release itself
created with a reservation for h loses it as the port becomes DETACHED (R48, log 12). -/
def State.depart (s : State) (h : Port) : State :=
  let r := ((s.endReservationsOf h).release h).stopTimersOf h
  (r.setPort h { r.port h with state := .detached }).endReservationsOf h

end Sys2Proof.Machine
end

