-- ==== Sys2Proof/Machine/Events.lean ====
section
/-! DEFINITION. The meanings of the events of the part: TIMEBASE_ADVANCE, TIMER_EXPIRY, SERVICE_EXPIRY,
COLLECTION_EXPIRY and AFFINITY_EXPIRY (R4 to R7, R47, R79, R80, R87, R105, R106, R109, R111). -/

namespace Sys2Proof.Machine

/-! ## Sampling -/

/-- A recognised change of line n to a level is handed to its source: an occurrence, a withdrawal, or
nothing (R5 to R7). -/
def State.recognisedChange (s : State) (n : LineId) (level : Bool) : State :=
  let src := lineSource n
  match (s.config src).sense, level with
  | .rising, true => s.occurrence src
  | .rising, false => s
  | .falling, true => s
  | .falling, false => s.occurrence src
  | .both, _ => s.occurrence src
  | .high, true => s.occurrence src
  | .high, false => s.withdraw src
  | .low, true => s.withdraw src
  | .low, false => s.occurrence src

/-- The sample of line n shows a level (R4). -/
def State.sampleLine (s : State) (n : LineId) (level : Bool) : State :=
  let l := s.line n
  if l.sampled = false then
    s.setLine n { recognised := level, run := 0, sampled := true, sampleDue := false }
  else if level = l.recognised then s.setLine n { l with run := 0, sampleDue := false }
  else if (s.config (lineSource n)).filter.val < l.run + 1 then
    (s.setLine n { l with recognised := level, run := 0, sampleDue := false }).recognisedChange n level
  else s.setLine n { l with run := l.run + 1, sampleDue := false }

/-! ## The events of an advance -/

/-- Every expiry that an advance can bring, timers' steps among them. -/
def allExpiries : List AdvanceEvent :=
  (List.finRange 8).map .timer
    ++ ((List.finRange 4).flatMap fun h => (List.finRange 4).map fun k => .service h k)
    ++ (List.finRange 64).map .collection ++ (List.finRange 64).map .affinity

/-- Every event that an advance can bring, in the order the model takes those that its `order` operand
does not name (log 6). -/
def allAdvanceEvents : List AdvanceEvent := (List.finRange 32).map .line ++ allExpiries

/-- The event has been reached and not been taken: equality of instant and timebase alone decides (R106). -/
def State.isDue (s : State) (e : AdvanceEvent) : Bool :=
  match e with
  | .line n => (s.line n).sampleDue
  | .timer n => (s.timer n).running && (s.timer n).stepDue
  | .service h k =>
    match s.entryAt h k with
    | none => false
    | some x => x.state == .active && x.expiry == some s.timebase
  | .collection i =>
    match s.ticketAt i with
    | none => false
    | some t =>
      match t.standing with
      | .spread _ _ c => c == some s.timebase
      | _ => false
  | .affinity i =>
    match s.ticketAt i with
    | none => false
    | some t =>
      match t.reservation with
      | none => false
      | some r => r.expiry == s.timebase

/-- An event that is due is taken; one that is not leaves the state as it is. -/
def State.takeEvent (pins : BitVec 32) (chainOrder : List TimerId) (s : State) (e : AdvanceEvent) : State :=
  if s.isDue e then
    match e with
    | .line n => s.sampleLine n (pins.getLsbD n.val)
    | .timer n => s.stepTimer n chainOrder
    | .service h k => s.lapseEntry h k
    | .collection i => s.collect i
    | .affinity i => s.endReservation i
  else s

/-- The advance leaves the event to a row of its own: it is named as held and is an expiry (log 7). A
timer is held only at the step that would make its count 0. -/
def State.isHeld (s : State) (held : List AdvanceEvent) (e : AdvanceEvent) : Bool :=
  held.contains e &&
    match e with
    | .line _ => false
    | .timer n => (s.timer n).count == 1
    | _ => true

/-- An event of an advance is taken unless the advance holds it. -/
def State.advanceEvent (pins : BitVec 32) (chainOrder : List TimerId) (held : List AdvanceEvent)
    (s : State) (e : AdvanceEvent) : State :=
  if s.isHeld held e then s else s.takeEvent pins chainOrder e

/-- The steps of timers whose boundary the timebase has just reached fall due (R109). -/
def Timer.markStep (now : Time) (t : Timer) : Timer :=
  let steps : Bool := match t.mode with
    | .periodic => true
    | .oneshot => true
    | _ => false
  { t with stepDue := t.running && steps && atBoundary now t.prescale }

/-- The timebase moves to its next value; the samples and steps of the advance fall due, and each port
counts the advance since its last select rise (R105, R109, R132). -/
def State.moveTimebase (s : State) : State :=
  let now := s.timebase + 1
  { s with
    timebase := now
    lines := fill fun n => { s.line n with sampleDue := true }
    timers := fill fun n => (s.timer n).markStep now
    ports := fill fun h =>
      let p := s.port h
      { p with link := { p.link with sinceRise := min Config.selectGap (p.link.sinceRise + 1) } } }

/-- The timers an order of events names, in its order. -/
def chainOrderOf (order : List AdvanceEvent) : List TimerId :=
  order.filterMap fun e =>
    match e with
    | .timer n => some n
    | _ => none

/-- The expiries of the present instant that were held and are still to be taken are taken (log 7). -/
def State.takeHeld (s : State) : State := allExpiries.foldl (State.takeEvent 0 []) s

/-- TIMEBASE_ADVANCE: the timebase increases by one, the lines are sampled, the timers step, and the
expiries that the new value reaches are taken (R4, R79, R105, R106, R109). -/
def execTimebaseAdvance (pins : BitVec 32) (order held : List AdvanceEvent) (s : State) :
    Host.Outcome State Fault Refusal :=
  let moved := s.takeHeld.moveTimebase
  let taken := (order ++ allAdvanceEvents).foldl (State.advanceEvent pins (chainOrderOf order) held) moved
  .next taken.recompute

/-- An expiry row takes its event if it is due, and otherwise changes nothing: the instant is not reached
or is no longer watched (R79, R92). -/
def State.expiryRow (s : State) (chainOrder : List TimerId) (e : AdvanceEvent) : State :=
  if s.isDue e then (s.takeEvent 0 chainOrder e).recompute else s

/-- TIMER_EXPIRY: the held expiry of timer n (R111). -/
def execTimerExpiry (n : TimerId) (chainOrder : List TimerId) (s : State) : Host.Outcome State Fault Refusal :=
  .next (s.expiryRow chainOrder (.timer n))

/-- SERVICE_EXPIRY: the service expiry of an entry of host h, counted from the top (R80). -/
def execServiceExpiry (h : Port) (entry : Fin 4) (s : State) : Host.Outcome State Fault Refusal :=
  .next (s.expiryRow [] (.service h entry))

/-- COLLECTION_EXPIRY: the collection expiry of the SPREAD ticket in a slot (R87). -/
def execCollectionExpiry (slot : SlotId) (s : State) : Host.Outcome State Fault Refusal :=
  .next (s.expiryRow [] (.collection slot))

/-- AFFINITY_EXPIRY: the affinity expiry of the ticket in a slot (R47). -/
def execAffinityExpiry (slot : SlotId) (s : State) : Host.Outcome State Fault Refusal :=
  .next (s.expiryRow [] (.affinity slot))

end Sys2Proof.Machine
end

