-- ==== Sys2Proof/Decode.lean ====
section
/-! DEFINITION. The command codes and argument bytes of the link (R143 to R145), read and written. The
rows of the opcode table carry no bits, so no table word spells a row. -/

namespace Sys2Proof

/-- The argument bytes of a transaction: bytes 2 to 14 (R143). -/
abbrev Args := Vector Byte 13

/-- A 16-bit argument that begins at argument byte k, most significant byte first (R143). -/
def argWord (a : Args) (k : Nat) : BitVec 16 := wordOf (a.toList.getD k 0) (a.toList.getD (k + 1) 0)

/-- The command of a command code with its argument bytes; none for a code that is not one of the 26 (R145). -/
def decodeCommand (code : Byte) (a : Args) : Option Command :=
  match code.toNat with
  | 0x00 => some .nop
  | 0x01 => some .attach
  | 0x02 => some .detach
  | 0x03 => some .status
  | 0x04 => some .time
  | 0x05 => some .lines
  | 0x10 => some .peek
  | 0x11 => some .claim
  | 0x12 => some (.claimHandle (argWord a 0))
  | 0x13 => some (.retire (argWord a 0))
  | 0x14 => some (.extend (argWord a 0))
  | 0x15 => some (.threshold (look a 0))
  | 0x16 => some (.post (look a 0) (argWord a 1))
  | 0x20 => some (.timerSetup (look a 0) (look a 1) (look a 2) (argWord a 3) (look a 5) (look a 6))
  | 0x21 => some (.timerStart (look a 0))
  | 0x22 => some (.timerStop (look a 0))
  | 0x23 => some (.timerLoad (look a 0) (argWord a 1))
  | 0x24 => some (.timerRead (look a 0))
  | 0x30 => some .take
  | 0x31 => some (.handover (look a 0))
  | 0x32 => some (.eject (look a 0))
  | 0x33 => some (.sourceSet (look a 0) (fill fun i => look a ⟨i.val + 1, by omega⟩))
  | 0x34 => some (.sourceRead (look a 0))
  | 0x35 => some .flush
  | 0x36 => some .faultRead
  | 0x37 => some (.trigger (look a 0))
  | _ => none

/-- The code of a command (R145). -/
def Command.code : Command → Byte
  | .nop => 0x00#8
  | .attach => 0x01#8
  | .detach => 0x02#8
  | .status => 0x03#8
  | .time => 0x04#8
  | .lines => 0x05#8
  | .peek => 0x10#8
  | .claim => 0x11#8
  | .claimHandle _ => 0x12#8
  | .retire _ => 0x13#8
  | .extend _ => 0x14#8
  | .threshold _ => 0x15#8
  | .post _ _ => 0x16#8
  | .timerSetup _ _ _ _ _ _ => 0x20#8
  | .timerStart _ => 0x21#8
  | .timerStop _ => 0x22#8
  | .timerLoad _ _ => 0x23#8
  | .timerRead _ => 0x24#8
  | .take => 0x30#8
  | .handover _ => 0x31#8
  | .eject _ => 0x32#8
  | .sourceSet _ _ => 0x33#8
  | .sourceRead _ => 0x34#8
  | .flush => 0x35#8
  | .faultRead => 0x36#8
  | .trigger _ => 0x37#8

/-- The argument bytes a command names, in order; the others are not used (R145). -/
def Command.argBytes : Command → List Byte
  | .claimHandle w => [highByte w, lowByte w]
  | .retire w => [highByte w, lowByte w]
  | .extend w => [highByte w, lowByte w]
  | .threshold t => [t]
  | .post src p => [src, highByte p, lowByte p]
  | .timerSetup n m p r g c => [n, m, p, highByte r, lowByte r, g, c]
  | .timerStart n => [n]
  | .timerStop n => [n]
  | .timerLoad n r => [n, highByte r, lowByte r]
  | .timerRead n => [n]
  | .handover t => [t]
  | .eject t => [t]
  | .sourceSet src cfg => src :: cfg.toList
  | .sourceRead src => [src]
  | .trigger src => [src]
  | _ => []

/-- The thirteen argument bytes of a command, those it does not use 00h (R143). -/
def Command.args (c : Command) : Args := fill fun i => c.argBytes.getD i.val 0

/-- The 16 bytes of a transaction that carries a command (R143). -/
def Command.frame (c : Command) (tag : Byte) : List Byte :=
  let body := c.code :: tag :: c.args.toList
  body ++ [checkByte body]

/-- The SDI bits of a transaction that carries a command, in the order of the wire (R132). -/
def Command.bits (c : Command) (tag : Byte) : List Bool := (c.frame tag).flatMap byteBits

/-- The 16 incoming bytes of a stream of bits (R132). -/
def frameBytes (bits : List Bool) : List Byte := (List.range 16).map (streamByte bits)

/-- The argument bytes of 16 incoming bytes (R143). -/
def frameArgs (bytes : List Byte) : Args := fill fun i => bytes.getD (i.val + 2) 0

/-- The commands that a DETACHED port takes (R139). -/
def Command.openToDetached : Command → Bool
  | .nop => true
  | .attach => true
  | .status => true
  | .time => true
  | .lines => true
  | _ => false

/-- The command that a table word spells. No row of the opcode table gives bits, so none does. -/
def decodeTableWord (_nbits _w : Nat) : Option Instr := none

end Sys2Proof
end

