-- ==== Sys2Proof/Machine/Flags.lean ====
section
/-! DEFINITION. Status codes, port flags, check byte and the making of a response (R133, R136, R143). -/

namespace Sys2Proof.Machine

/-- The code of a status (R143). -/
def Status.code : Status → Byte
  | .none => 0x00#8
  | .ok => 0x01#8
  | .empty => 0x02#8
  | .gone => 0x03#8
  | .nothingHeld => 0x04#8
  | .mismatch => 0x05#8
  | .tooLate => 0x06#8
  | .stackFull => 0x07#8
  | .extendLimit => 0x08#8
  | .noLimit => 0x09#8
  | .notAttached => 0x10#8
  | .notSupervisor => 0x11#8
  | .tokenHeld => 0x12#8
  | .badArg => 0x13#8
  | .disabled => 0x14#8
  | .busy => 0x15#8
  | .notOwner => 0x16#8
  | .poolFull => 0x17#8
  | .sourceFull => 0x18#8
  | .queueEmpty => 0x19#8
  | .badCheck => 0x20#8
  | .frameError => 0x21#8
  | .unknown => 0x22#8

/-- The port flags of a response made now for port h (R136). -/
def State.portFlags (s : State) (h : Port) : PortFlags :=
  { attached := s.attached h
    token := s.token == some h
    offer := (s.offer h).isSome
    flushed := (s.port h).flushed
    ejected := (s.port h).ejected
    depth := (s.port h).stack.length }

/-- The port flags byte (R143). -/
def PortFlags.byte (f : PortFlags) : Byte :=
  bitAt 7 f.attached ||| bitAt 6 f.token ||| bitAt 5 f.offer ||| bitAt 4 f.flushed
    ||| bitAt 3 f.ejected ||| (byteOf f.depth &&& 0x07#8)

/-- Twelve data bytes from the bytes a layout names; bytes not named are 00h (R147). -/
def dataBytes (bytes : List Byte) : Vector Byte 12 := fill fun i => bytes.getD i.val 0

/-- The first 15 bytes of a response (R143). -/
def responseBody (status : Status) (tag : Byte) (data : Vector Byte 12) (flags : PortFlags) : List Byte :=
  status.code :: tag :: (data.toList ++ [flags.byte])

/-- The 16 bytes of a response on the wire (R143). -/
def Response.bytes (r : Response) : List Byte :=
  responseBody r.status r.tag r.data r.flags ++ [r.check]

/-- A response with its check byte (R133). -/
def makeResponse (status : Status) (tag : Byte) (data : List Byte) (flags : PortFlags) : Response :=
  { status := status, tag := tag, data := dataBytes data, flags := flags
    check := checkByte (responseBody status tag (dataBytes data) flags) }

/-- The response slot of port h is replaced by a response made now (R134, R136). -/
def State.answer (s : State) (h : Port) (tag : Byte) (status : Status) (data : List Byte) : State :=
  let p := s.port h
  s.setPort h { p with link := { p.link with slot := makeResponse status tag data (s.portFlags h) } }

/-- A command that runs at an ATTACHED port alone; a DETACHED one is answered NOT_ATTACHED (R139). -/
def State.ifAttached (s : State) (h : Port) (tag : Byte) (run : State) : State :=
  if s.attached h then run else s.answer h tag .notAttached []

/-- A protected command: NOT_ATTACHED first, then NOT_SUPERVISOR (R121). -/
def State.ifSupervisor (s : State) (h : Port) (tag : Byte) (run : State) : State :=
  s.ifAttached h tag (if s.token = some h then run else s.answer h tag .notSupervisor [])

end Sys2Proof.Machine
end

