-- ==== Sys2Proof/Machine/Operands.lean ====
section
/-! DEFINITION. The argument fields a command reads and the data layouts a response carries
(R144 to R147). -/

namespace Sys2Proof.Machine

/-! ## Argument fields -/

/-- The handle a handle word names; none when any of bits 5–0 is set (R144). -/
def handleOfWord (w : BitVec 16) : Option Handle :=
  if w.extractLsb' 0 6 = 0 then
    some { slot := (w.extractLsb' 10 6).toFin, generation := (w.extractLsb' 6 4).toFin }
  else none

/-- The port of a port byte, 0 to 3 (R144). -/
def portOfByte (b : Byte) : Option Port := if h : b.toNat < 4 then some ⟨b.toNat, h⟩ else none

/-- The source of a source byte, 0 to 48. -/
def sourceOfByte (b : Byte) : Option SourceId := if h : b.toNat < 49 then some ⟨b.toNat, h⟩ else none

/-- The timer of a timer byte, 0 to 7. -/
def timerOfByte (b : Byte) : Option TimerId := if h : b.toNat < 8 then some ⟨b.toNat, h⟩ else none

/-- The level of a threshold byte, 0 to 15. -/
def levelOfByte (b : Byte) : Option (Fin 16) := if h : b.toNat < 16 then some ⟨b.toNat, h⟩ else none

/-- The timer mode codes (R144). -/
def modeOfByte (b : Byte) : Option TimerMode :=
  match b.toNat with
  | 0 => some .off
  | 1 => some .periodic
  | 2 => some .oneshot
  | 3 => some .chained
  | _ => none

/-- The prescale codes (R144). -/
def prescaleOfByte (b : Byte) : Option Prescale :=
  match b.toNat with
  | 0 => some .by1
  | 1 => some .by16
  | 2 => some .by256
  | 3 => some .by4096
  | _ => none

/-- The gate byte: FFh gives no gate line, 0 to 31 a line, and any other value is out of range. -/
def gateOfByte (b : Byte) : Option (Option LineId) :=
  if b = 0xFF#8 then some none
  else if h : b.toNat < 32 then some (some ⟨b.toNat, h⟩) else none

/-- The preferred host byte: FFh gives none (R146). -/
def preferredOfByte (b : Byte) : Option (Option Port) :=
  if b = 0xFF#8 then some none else (portOfByte b).map some

/-- The sense codes (R144). -/
def senseOfNat (n : Nat) : Option Sense :=
  match n with
  | 0 => some .rising
  | 1 => some .falling
  | 2 => some .both
  | 3 => some .high
  | 4 => some .low
  | _ => none

/-- The sense and filter of c8: a line source gives both, the others F0h, which gives neither (R146). -/
def senseFilter (src : SourceId) (c8 : Byte) : Option (Sense × Fin 16) :=
  match SourceId.line src with
  | some _ => (senseOfNat (c8.extractLsb' 4 4).toNat).map fun sense => (sense, (c8.extractLsb' 0 4).toFin)
  | none => if c8 = 0xF0#8 then some (.rising, 0) else none

/-- The record that nine configuration bytes give a source 0 to 47; none where R11 or R146 refuses
them with BAD_ARG. -/
def recordOfBytes (src : SourceId) (c : Vector Byte 9) : Option SourceRecord :=
  let c0 := look c 0; let c1 := look c 1; let c2 := look c 2; let c3 := look c 3
  let limits := wordOf (look c 6) (look c 7)
  match preferredOfByte c3, senseFilter src (look c 8) with
  | some preferred, some (sense, filter) =>
    let policy : Policy := if c1.getLsbD 0 then .each else .single
    let eligible : HostSet := c2.extractLsb' 0 4
    let retry : Fin 8 := (limits.extractLsb' 0 3).toFin
    let strayBit := c0.extractLsb' 4 4 ≠ 0 ∨ c1.extractLsb' 1 7 ≠ 0 ∨ c2.extractLsb' 4 4 ≠ 0 ∨ limits.getLsbD 3
    let badPreferred : Bool := match preferred with
      | none => false
      | some h => policy == .each || !HostSet.has eligible h
    if strayBit ∨ retry = 0 ∨ badPreferred then none
    else
      some { level := (c0.extractLsb' 0 4).toFin, policy := policy, eligible := eligible, preferred := preferred
             window := wordOf (look c 4) (look c 5), serviceLimit := limits.extractLsb' 4 12
             retryLimit := retry, sense := sense, filter := filter }
  | _, _ => none

/-- The level that nine configuration bytes give source 48: c0 alone is a field, the others are FFh
(R146). -/
def faultLevelOfBytes (c : Vector Byte 9) : Option (Fin 16) :=
  let c0 := look c 0
  if c0.extractLsb' 4 4 = 0 ∧ c.toList.tail = List.replicate 8 0xFF#8 then some (c0.extractLsb' 0 4).toFin else none

/-- The record a SOURCE_SET gives a source, or none where it is refused with BAD_ARG (R11, R146). -/
def State.recordGiven (s : State) (src : SourceId) (c : Vector Byte 9) : Option SourceRecord :=
  if src = faultSource then (faultLevelOfBytes c).map fun level => { s.faultRecordOf with level := level }
  else recordOfBytes src c

/-! ## Data layouts -/

/-- A handle word, with a source in bits 5–0 or 0 for a handle alone (R144). -/
def handleWord (hd : Handle) (low : Nat) : BitVec 16 :=
  (BitVec.ofNat 6 hd.slot.val ++ BitVec.ofNat 4 hd.generation.val : BitVec 10) ++ BitVec.ofNat 6 low

/-- The two bytes of a 16-bit field, most significant first. -/
def wordBytes (w : BitVec 16) : List Byte := [highByte w, lowByte w]

/-- FFFFh, a handle that is absent (R144). -/
def noHandle : List Byte := [0xFF#8, 0xFF#8]

/-- A port byte: FFh for none (R144). -/
def portByte : Option Port → Byte
  | none => 0xFF#8
  | some h => byteOf h.val

/-- The policy code (R144). -/
def Policy.code : Policy → Nat
  | .single => 0
  | .each => 1

/-- The sense code (R144). -/
def Sense.code : Sense → Nat
  | .rising => 0
  | .falling => 1
  | .both => 2
  | .high => 3
  | .low => 4

/-- The timer mode code (R144). -/
def TimerMode.code : TimerMode → Nat
  | .off => 0
  | .periodic => 1
  | .oneshot => 2
  | .chained => 3

/-- The prescale code (R144). -/
def Prescale.code : Prescale → Nat
  | .by1 => 0
  | .by16 => 1
  | .by256 => 2
  | .by4096 => 3

/-- The ticket report (R147). -/
def ticketReport (hd : Handle) (t : Ticket) : List Byte :=
  wordBytes (handleWord hd t.source.val)
    ++ [byteOf (16 * t.level.val + 8 * t.policy.code + t.lapses), byteOf t.count]
    ++ wordBytes (t.payload.getD 0) ++ timeBytes t.stamp

/-- The entry report of a popped entry, RETIRE answered OK or TOO_LATE (R147). Bits 7 and 6 of byte 2, which
R147 does not name, are 0 (log 13, DESIGN CHOICE). -/
def popReport (e : Entry) (freed : Bool) (levelAfter : Fin 16) : List Byte :=
  wordBytes (handleWord e.handle e.source.val) ++ [byteOf e.level.val ||| bitAt 5 freed, byteOf levelAfter.val]

/-- The entry report of the top entry, RETIRE and EXTEND answered MISMATCH (R147). Bits 7 and 6 of byte 2,
which R147 does not name, are 0 (log 13, DESIGN CHOICE). -/
def topReport (e : Entry) : List Byte :=
  wordBytes (handleWord e.handle e.source.val)
    ++ [byteOf e.level.val ||| bitAt 4 (decide (e.state = .lapsed)), 0]

/-- The timer record (R147). -/
def timerReport (n : TimerId) (t : Timer) : List Byte :=
  let owner : Nat := match t.owner with
    | none => 0
    | some h => h.val
  [byteOf n.val,
   byteOf (64 * t.mode.code + 16 * t.prescale.code) ||| bitAt 3 t.running ||| bitAt 2 t.owner.isSome ||| byteOf owner,
   (match t.gate with
    | none => 0xFF#8
    | some g => byteOf g.val),
   byteOf t.chain.val] ++ wordBytes t.reload ++ wordBytes t.count

/-- The kind code of a fault record (R147). -/
def FaultRecord.kind : FaultRecord → Nat
  | .abandoned _ _ _ _ => 1
  | .shareLapsed _ _ _ _ => 2
  | .hostReleased _ _ _ => 3

/-- Bytes 1 to 10 of the fault report of a record (R147). -/
def FaultRecord.fields : FaultRecord → List Byte
  | .abandoned src hd lapses stamp =>
    wordBytes (handleWord hd src.val) ++ [0xFF#8, byteOf lapses] ++ timeBytes stamp
  | .shareLapsed src hd host stamp =>
    wordBytes (handleWord hd src.val) ++ [byteOf host.val, 0] ++ timeBytes stamp
  | .hostReleased host entries stamp => noHandle ++ [byteOf host.val, byteOf entries] ++ timeBytes stamp

/-- The fault report; with no record it is that of QUEUE_EMPTY (R147). Bits 3 and 2 of byte 0, which R147 does
not name, are 0 (log 13, DESIGN CHOICE). -/
def faultReport (overflow : Bool) (left : Nat) (r : Option FaultRecord) : List Byte :=
  match r with
  | none => (bitAt 7 overflow ||| byteOf (16 * left)) :: (noHandle ++ [0xFF#8])
  | some r => (bitAt 7 overflow ||| byteOf (16 * left + r.kind)) :: r.fields

/-- The nine configuration bytes of SOURCE_READ, with the recognised level in c0 and the non-FREE count
in c1 (R146). -/
def configBytes (r : SourceRecord) (recognised : Bool) (live : Nat) : List Byte :=
  [byteOf r.level.val ||| bitAt 7 recognised,
   byteOf (2 * live + r.policy.code),
   r.eligible.setWidth 8,
   portByte r.preferred]
  ++ wordBytes r.window
  ++ wordBytes (r.serviceLimit ++ BitVec.ofNat 4 r.retryLimit.val)
  ++ [byteOf (16 * r.sense.code + r.filter.val)]

/-- The data of SOURCE_READ (R19, R146). -/
def State.sourceReport (s : State) (src : SourceId) : List Byte :=
  let recognised : Bool := match SourceId.line src with
    | some n => (s.line n).recognised
    | none => false
  let deferred : Nat := match s.deferralOf src with
    | none => 0
    | some d => d.count
  configBytes (s.config src) recognised (s.liveCount src)
    ++ [byteOf deferred]
    ++ (match s.waitingTicket src with
        | none => noHandle
        | some i => wordBytes (handleWord (s.handleOf i) 0))

/-- The 32-bit word of LINES, four bytes, most significant first (R147). -/
def State.linesReport (s : State) : List Byte :=
  (List.range 4).map fun k =>
    (List.range 8).foldl
      (fun acc j => acc ||| bitAt j ((s.lines.toList.getD (8 * (3 - k) + j)
        { recognised := false, run := 0, sampled := false, sampleDue := false }).recognised)) 0

end Sys2Proof.Machine
end

