-- ==== Sys2Proof/Machine/Session.lean ====
section
/-! DEFINITION. The meanings of NOP, ATTACH, DETACH, STATUS, TIME and LINES (R18, R107, R135, R140 to R142). -/

namespace Sys2Proof.Machine

/-- NOP is answered OK with no data at any port (R135). -/
def execNop (h : Port) (tag : Byte) (s : State) : Host.Outcome State Fault Refusal :=
  .next (s.answer h tag .ok [])

/-- The data of an ATTACH response (R140, R147). -/
def State.attachReport (s : State) (h : Port) : List Byte :=
  [byteOf h.val, portByte s.token, byteOf s.freeSlots]

/-- ATTACH makes a DETACHED port ATTACHED with threshold 0; at an ATTACHED port nothing changes (R140). -/
def execAttach (h : Port) (tag : Byte) (s : State) : Host.Outcome State Fault Refusal :=
  let s' :=
    if s.attached h then s
    else (s.setPort h { s.port h with state := .attached, threshold := 0 }).recompute
  .next (s'.answer h tag .ok (s'.attachReport h))

/-- DETACH takes port h out of the dispatching of work (R141). -/
def execDetach (h : Port) (tag : Byte) (s : State) : Host.Outcome State Fault Refusal :=
  let holds := s.token == some h
  let gone := s.depart h
  let s' := State.recompute { gone with token := if holds then none else gone.token }
  .next (s.ifAttached h tag
    (s'.answer h tag .ok [byteOf (s.activeEntries h), byteOf (s.ownedTimers h), bitAt 0 holds]))

/-- The data of a STATUS response (R142, R147). Bits 6, 4 and 3 of byte 0, which R147 does not name, are 0
(log 13, DESIGN CHOICE). -/
def State.statusReport (s : State) (h : Port) : List Byte :=
  let p := s.port h
  [bitAt 7 (s.attached h) ||| bitAt 5 (s.offer h).isSome ||| (byteOf p.stack.length &&& 0x07#8),
   byteOf p.threshold.val, byteOf (s.serviceLevel h).val, portByte s.token,
   byteOf s.freeSlots, byteOf s.deferredSources, byteOf s.faults.records.length]

/-- STATUS changes nothing and reports the standing of the port and the part (R142). -/
def execStatus (h : Port) (tag : Byte) (s : State) : Host.Outcome State Fault Refusal :=
  .next (s.answer h tag .ok (s.statusReport h))

/-- TIME reports the timebase as it stands (R107). -/
def execTime (h : Port) (tag : Byte) (s : State) : Host.Outcome State Fault Refusal :=
  .next (s.answer h tag .ok (timeBytes s.timebase))

/-- LINES reports the recognised level of every line (R18). -/
def execLines (h : Port) (tag : Byte) (s : State) : Host.Outcome State Fault Refusal :=
  .next (s.answer h tag .ok s.linesReport)

end Sys2Proof.Machine
end

