-- ==== Sys2Proof/Machine/Supervision.lean ====
section
/-! DEFINITION. The meanings of the supervision commands: TAKE, HANDOVER, EJECT, SOURCE_SET, SOURCE_READ,
FLUSH, FAULT_READ and TRIGGER (R11 to R19, R38, R119 to R129). -/

namespace Sys2Proof.Machine

/-- TAKE gives the vacant token to the issuing port (R119). -/
def execTake (h : Port) (tag : Byte) (s : State) : Host.Outcome State Fault Refusal :=
  .next (s.ifAttached h tag (
    match s.token with
    | some holder => s.answer h tag .tokenHeld [portByte (some holder)]
    | none => (State.recompute { s with token := some h }).answer h tag .ok [portByte (some h)]))

/-- HANDOVER passes the token to another attached port (R120). -/
def execHandover (h : Port) (tag : Byte) (target : Byte) (s : State) : Host.Outcome State Fault Refusal :=
  .next (s.ifSupervisor h tag (
    match portOfByte target with
    | none => s.answer h tag .badArg []
    | some t =>
      if t = h ∨ s.attached t = false then s.answer h tag .badArg []
      else (State.recompute { s with token := some t }).answer h tag .ok [portByte (some t)]))

/-- An accepted EJECT of port t: every effect of a detach, and the ejected notice (R123). -/
def State.ejectPort (s : State) (t : Port) : State :=
  let gone := s.depart t
  (gone.setPort t { gone.port t with ejected := true }).recompute

/-- EJECT detaches another port on the supervisor's order (R122, R123). -/
def execEject (h : Port) (tag : Byte) (target : Byte) (s : State) : Host.Outcome State Fault Refusal :=
  .next (s.ifSupervisor h tag (
    match portOfByte target with
    | none => s.answer h tag .badArg []
    | some t =>
      if t = h ∨ s.attached t = false then s.answer h tag .badArg []
      else
        (s.ejectPort t).answer h tag .ok
          [byteOf t.val, byteOf (s.activeEntries t), byteOf (s.ownedTimers t)]))

/-- The source is held active: enabled, level-sensed, and its line at the active level (R13). -/
def State.heldActive (s : State) (src : SourceId) : Bool :=
  decide ((s.config src).level ≠ 0) && s.lineActive src

/-- What an accepted SOURCE_SET does once the new record is in place in `s`; `before` is the state before
it (R13, R14, R16). -/
def State.afterSourceSet (s before : State) (src : SourceId) : State :=
  let fresh := s.heldActive src && !before.heldActive src
  let faultEnabled := src == faultSource && decide ((before.config src).level = 0)
    && decide ((s.config src).level ≠ 0) && !s.faults.records.isEmpty
  let s1 := if fresh || faultEnabled then s.occurrence src else s
  let s2 := if s1.lineInactive src then s1.withdraw src else s1
  if (s2.config src).level = 0 then s2.disable src else s2

/-- SOURCE_SET replaces the configuration record of one source (R11). -/
def execSourceSet (h : Port) (tag : Byte) (source : Byte) (config : Vector Byte 9) (s : State) :
    Host.Outcome State Fault Refusal :=
  .next (s.ifSupervisor h tag (
    match sourceOfByte source with
    | none => s.answer h tag .badArg []
    | some src =>
      match s.recordGiven src config with
      | none => s.answer h tag .badArg []
      | some r => (((s.setConfig src r).afterSourceSet s src).recompute).answer h tag .ok []))

/-- SOURCE_READ reports the configuration and runtime state of one source (R19). -/
def execSourceRead (h : Port) (tag : Byte) (source : Byte) (s : State) : Host.Outcome State Fault Refusal :=
  .next (s.ifAttached h tag (
    match sourceOfByte source with
    | none => s.answer h tag .badArg []
    | some src => s.answer h tag .ok (s.sourceReport src)))

/-- The pool after a flush: every live ticket FREE with its generation advanced, both orders empty, every
deferral cleared, no grant (R38). -/
def Pool.flushed (p : Pool) : Pool :=
  { slots := fill fun i =>
      let x := look p.slots i
      { generation := if x.ticket.isSome then x.generation + 1 else x.generation, ticket := none }
    order := []
    deferrals := Vector.replicate 49 none }

/-- The ports after a flush: every stack empty, and the flushed notice of each ATTACHED port set (R124). -/
def State.flushedPorts (s : State) : Vector HostPort 4 :=
  fill fun h =>
    let p := s.port h
    { p with stack := [], flushed := p.flushed || s.attached h }

/-- The re-arm occurrence of one line source at the end of a flush (R125). -/
def State.flushRearm (s : State) (n : LineId) : State :=
  if s.heldActive (lineSource n) then s.occurrence (lineSource n) else s

/-- A flush, with the re-arm occurrences of R125 (R124). -/
def State.flush (s : State) : State :=
  let empty := { s with pool := s.pool.flushed, ports := s.flushedPorts }
  let lines := (List.finRange 32).foldl State.flushRearm empty
  let faults := if lines.faults.records.isEmpty then lines else lines.occurrence faultSource
  faults.recompute

/-- FLUSH abandons all outstanding work (R124). -/
def execFlush (h : Port) (tag : Byte) (s : State) : Host.Outcome State Fault Refusal :=
  .next (s.ifSupervisor h tag
    (s.flush.answer h tag .ok [byteOf s.liveTickets, byteOf s.deferredSources]))

/-- The oldest record leaves the fault queue and the indicator is cleared; when the queue becomes empty
the pending work of source 48 is withdrawn (R128, R129). -/
def State.readFault (s : State) (rest : List FaultRecord) : State :=
  let s' := { s with faults := { records := rest, overflow := false } }
  if rest.isEmpty then (s'.withdraw faultSource).recompute else s'

/-- FAULT_READ removes and reports the oldest fault record (R128). -/
def execFaultRead (h : Port) (tag : Byte) (s : State) : Host.Outcome State Fault Refusal :=
  .next (s.ifSupervisor h tag (
    match s.faults.records with
    | [] =>
      State.answer { s with faults := { s.faults with overflow := false } } h tag .queueEmpty
        (faultReport s.faults.overflow 0 none)
    | r :: rest =>
      (s.readFault rest).answer h tag .ok (faultReport s.faults.overflow rest.length (some r))))

/-- The data of a TRIGGER answered OK: the case of R9, the handle, and the count after it (R17, R147). -/
def State.triggerReport (s : State) (src : SourceId) (c : OccurrenceCase) : List Byte :=
  let countOf (i : SlotId) : Byte := match s.ticketAt i with
    | none => 0
    | some t => byteOf t.count
  let deferred : Byte := match s.deferralOf src with
    | none => 0
    | some d => byteOf d.count
  byteOf c.number ::
    match c with
    | .coalesced i => wordBytes (handleWord (s.handleOf i) 0) ++ [countOf i]
    | .created i => wordBytes (handleWord (s.handleOf i) 0) ++ [countOf i]
    | _ => noHandle ++ [deferred]

/-- TRIGGER refuses a level-sensed line source, a posted source and source 48 (R17). -/
def State.triggerable (s : State) (src : SourceId) : Bool :=
  match SourceId.line src with
  | some _ => (s.config src).sense.activeLevel.isNone
  | none => SourceId.isTimer src

/-- TRIGGER makes one occurrence of an edge-sensed line source or a timer source (R17). -/
def execTrigger (h : Port) (tag : Byte) (source : Byte) (s : State) : Host.Outcome State Fault Refusal :=
  .next (s.ifSupervisor h tag (
    match sourceOfByte source with
    | none => s.answer h tag .badArg []
    | some src =>
      if s.triggerable src = false then s.answer h tag .badArg []
      else if (s.config src).level = 0 then s.answer h tag .disabled []
      else
        let s' := (s.occurrence src).recompute
        s'.answer h tag .ok (s'.triggerReport src (s.occurrenceCase src))))

end Sys2Proof.Machine
end

