-- ==== Sys2Proof/Machine/Timers.lean ====
section
/-! DEFINITION. The meanings of the five timer commands (R112 to R116). -/

namespace Sys2Proof.Machine

/-- A timer command is answered with the record of its timer as it stands after the command (R112). -/
def State.answerTimer (s : State) (h : Port) (tag : Byte) (status : Status) (n : TimerId) : State :=
  s.answer h tag status (timerReport n (s.timer n))

/-- The checks of the arguments of a TIMER_SETUP, and the record it gives a stopped timer (R112). -/
def Timer.setUp (t : Timer) (n : TimerId) (mode prescale : Byte) (reload : BitVec 16) (gate chain : Byte) :
    Option Timer :=
  match modeOfByte mode, prescaleOfByte prescale, gateOfByte gate, timerOfByte chain with
  | some m, some p, some g, some c =>
    if reload = 0 ∨ (g.isSome ∧ (m = .off ∨ m = .chained)) ∨ (m = .chained ∧ c = n) then none
    else
      some { t with mode := m, prescale := p, reload := reload, gate := g
                    chain := if m = .chained then c else 0 }
  | _, _, _, _ => none

/-- TIMER_SETUP configures a stopped timer (R112). -/
def execTimerSetup (h : Port) (tag : Byte) (timer mode prescale : Byte) (reload : BitVec 16)
    (gate chain : Byte) (s : State) : Host.Outcome State Fault Refusal :=
  .next (s.ifAttached h tag (
    match timerOfByte timer with
    | none => s.answer h tag .badArg []
    | some n =>
      if (s.timer n).running then s.answerTimer h tag .busy n
      else
        match (s.timer n).setUp n mode prescale reload gate chain with
        | none => s.answerTimer h tag .badArg n
        | some t => (s.setTimer n t).answerTimer h tag .ok n))

/-- TIMER_START starts a timer from its reload, or restarts one the issuer owns (R113). -/
def execTimerStart (h : Port) (tag : Byte) (timer : Byte) (s : State) : Host.Outcome State Fault Refusal :=
  .next (s.ifAttached h tag (
    match timerOfByte timer with
    | none => s.answer h tag .badArg []
    | some n =>
      let t := s.timer n
      if t.mode = .off then s.answerTimer h tag .badArg n
      else if t.running ∧ t.owner ≠ some h then s.answerTimer h tag .notOwner n
      else
        (s.setTimer n { t with count := t.reload, running := true, owner := some h, stepDue := false }).answerTimer
          h tag .ok n))

/-- TIMER_STOP stops a timer for its owner or the token holder and keeps its count (R114). -/
def execTimerStop (h : Port) (tag : Byte) (timer : Byte) (s : State) : Host.Outcome State Fault Refusal :=
  .next (s.ifAttached h tag (
    match timerOfByte timer with
    | none => s.answer h tag .badArg []
    | some n =>
      let t := s.timer n
      if t.running = false then s.answerTimer h tag .ok n
      else if t.owner = some h ∨ s.token = some h then (s.setTimer n t.stopped).answerTimer h tag .ok n
      else s.answerTimer h tag .notOwner n))

/-- TIMER_LOAD sets the reload of a timer and leaves its count (R115). -/
def execTimerLoad (h : Port) (tag : Byte) (timer : Byte) (reload : BitVec 16) (s : State) :
    Host.Outcome State Fault Refusal :=
  .next (s.ifAttached h tag (
    match timerOfByte timer with
    | none => s.answer h tag .badArg []
    | some n =>
      let t := s.timer n
      if reload = 0 then s.answerTimer h tag .badArg n
      else if t.running ∧ t.owner ≠ some h then s.answerTimer h tag .notOwner n
      else (s.setTimer n { t with reload := reload }).answerTimer h tag .ok n))

/-- TIMER_READ reports the record of a timer (R116). -/
def execTimerRead (h : Port) (tag : Byte) (timer : Byte) (s : State) : Host.Outcome State Fault Refusal :=
  .next (s.ifAttached h tag (
    match timerOfByte timer with
    | none => s.answer h tag .badArg []
    | some n => s.answerTimer h tag .ok n))

end Sys2Proof.Machine
end

