-- ==== Sys2Proof/Machine/Work.lean ====
section
/-! DEFINITION. The meanings of the dispatch commands: PEEK, CLAIM, CLAIM_HANDLE, RETIRE, EXTEND,
THRESHOLD and POST (R49 to R55, R66 to R77, R98, R99). -/

namespace Sys2Proof.Machine

/-- The ticket report of the ticket in slot i as it stands (R49). -/
def State.reportOf (s : State) (i : SlotId) : List Byte :=
  match s.ticketAt i with
  | none => []
  | some t => ticketReport (s.handleOf i) t

/-- PEEK reports the offer and changes nothing (R49). -/
def execPeek (h : Port) (tag : Byte) (s : State) : Host.Outcome State Fault Refusal :=
  .next (s.ifAttached h tag (
    if Config.stackDepth ≤ (s.port h).stack.length then s.answer h tag .stackFull []
    else
      match s.offer h with
      | none => s.answer h tag .empty []
      | some i => s.answer h tag .ok (s.reportOf i)))

/-- The hosts of a set whose ports are ATTACHED (R52). -/
def State.attachedOf (s : State) (S : HostSet) : HostSet :=
  HostSet.collect fun h => HostSet.has S h && s.attached h

/-- The standing of a ticket after host h has claimed it: HELD (R51), SPREAD by the first claim (R52),
or SPREAD with h among the claimers (R53). -/
def State.claimStanding (s : State) (h : Port) (t : Ticket) : Standing :=
  match t.standing with
  | .spread owed claimed c => .spread owed (HostSet.add claimed h) c
  | _ =>
    match t.policy with
    | .single => .held h
    | .each =>
      .spread (s.attachedOf t.eligible) (HostSet.only h) (expiryAfter s.timebase t.serviceLimit)

/-- The entry a claim of the ticket in slot i pushes (R54). -/
def State.claimEntry (s : State) (i : SlotId) (t : Ticket) : Entry :=
  { handle := s.handleOf i, source := t.source, level := t.level, state := .active
    expiry := expiryAfter s.timebase t.serviceLimit, extensions := 0 }

/-- Host h claims the ticket t in slot i: the ticket changes its state and an entry is pushed (R51 to R54). -/
def State.claimTicket (s : State) (h : Port) (i : SlotId) (t : Ticket) : State :=
  (s.setTicket i { t with standing := s.claimStanding h t }).setStack h
    (s.claimEntry i t :: (s.port h).stack)

/-- The claim of the offer in slot i, with its response (R50, R54). -/
def State.claimOffer (s : State) (h : Port) (tag : Byte) (i : SlotId) : State :=
  match s.ticketAt i with
  | none => s.answer h tag .empty []
  | some t =>
    let s' := (s.claimTicket h i t).recompute
    s'.answer h tag .ok (s'.reportOf i)

/-- CLAIM takes the offer of host h as it stands (R50). -/
def execClaim (h : Port) (tag : Byte) (s : State) : Host.Outcome State Fault Refusal :=
  .next (s.ifAttached h tag (
    if Config.stackDepth ≤ (s.port h).stack.length then s.answer h tag .stackFull []
    else
      match s.offer h with
      | none => s.answer h tag .empty []
      | some i => s.claimOffer h tag i))

/-- CLAIM_HANDLE takes the offer of host h only if the handle word names it (R55). -/
def execClaimHandle (h : Port) (tag : Byte) (word : BitVec 16) (s : State) :
    Host.Outcome State Fault Refusal :=
  .next (s.ifAttached h tag (
    if Config.stackDepth ≤ (s.port h).stack.length then s.answer h tag .stackFull []
    else
      match s.offer h with
      | none => s.answer h tag .gone []
      | some i =>
        if handleOfWord word = some (s.handleOf i) then s.claimOffer h tag i
        else s.answer h tag .gone []))

/-- The retirement of an ACTIVE entry frees its ticket: the ticket is HELD, or host h is the last one
owed (R69, R70). -/
def State.retirementFrees (s : State) (h : Port) (hd : Handle) : Bool :=
  match s.named hd with
  | none => false
  | some t =>
    match t.standing with
    | .held _ => true
    | .spread owed _ _ => HostSet.without owed h == 0
    | .waiting => false

/-- What the retirement of an ACTIVE entry does with its ticket (R69, R70). -/
def State.retireTicket (s : State) (h : Port) (hd : Handle) : State :=
  match s.named hd with
  | none => s
  | some t =>
    match t.standing with
    | .held _ => s.settle hd.slot t.source
    | .spread _ _ _ => s.leaveRound h hd.slot
    | .waiting => s

/-- RETIRE reports the work of the top entry finished (R68 to R72). -/
def execRetire (h : Port) (tag : Byte) (word : BitVec 16) (s : State) : Host.Outcome State Fault Refusal :=
  .next (s.ifAttached h tag (
    match (s.port h).stack with
    | [] => s.answer h tag .nothingHeld []
    | e :: rest =>
      if handleOfWord word ≠ some e.handle then s.answer h tag .mismatch (topReport e)
      else
        match e.state with
        | .lapsed =>
          let s' := (s.setStack h rest).recompute
          s'.answer h tag .tooLate (popReport e false (s'.serviceLevel h))
        | .active =>
          let s' := ((s.setStack h rest).retireTicket h e.handle).recompute
          s'.answer h tag .ok (popReport e (s.retirementFrees h e.handle) (s'.serviceLevel h))))

/-- The service limit in the snapshot of the ticket an entry names (R76). -/
def State.limitOf (s : State) (hd : Handle) : BitVec 12 :=
  match s.ticketAt hd.slot with
  | none => 0
  | some t => t.serviceLimit

/-- A number as three bytes, most significant first. -/
def bytes24 (n : Nat) : List Byte := [byteOf (n / 65536), byteOf (n / 256), byteOf n]

/-- EXTEND asks for more time on the top entry (R75, R76). -/
def execExtend (h : Port) (tag : Byte) (word : BitVec 16) (s : State) : Host.Outcome State Fault Refusal :=
  .next (s.ifAttached h tag (
    match (s.port h).stack with
    | [] => s.answer h tag .nothingHeld []
    | e :: rest =>
      if handleOfWord word ≠ some e.handle then s.answer h tag .mismatch (topReport e)
      else if e.state = .lapsed then s.answer h tag .tooLate []
      else if e.expiry = none then s.answer h tag .noLimit []
      else if Config.maxExtensions ≤ e.extensions then s.answer h tag .extendLimit []
      else
        let span := Config.limitUnit * (s.limitOf e.handle).toNat
        let e' := { e with expiry := some (s.timebase + BitVec.ofNat 48 span), extensions := e.extensions + 1 }
        (s.setStack h (e' :: rest)).answer h tag .ok (bytes24 span ++ [byteOf (e.extensions + 1)])))

/-- THRESHOLD sets the threshold of host h (R66). -/
def execThreshold (h : Port) (tag : Byte) (value : Byte) (s : State) : Host.Outcome State Fault Refusal :=
  .next (s.ifAttached h tag (
    match levelOfByte value with
    | none => s.answer h tag .badArg []
    | some t =>
      let s' := (s.setPort h { s.port h with threshold := t }).recompute
      s'.answer h tag .ok [byteOf t.val, byteOf (s'.serviceLevel h).val]))

/-- The two numbers of a POST response: non-FREE tickets of the source, and free slots (R98). -/
def State.postNumbers (s : State) (src : SourceId) : List Byte :=
  [byteOf (s.liveCount src), byteOf s.freeSlots]

/-- POST creates a ticket that carries a payload on a posted source (R98, R99). -/
def execPost (h : Port) (tag : Byte) (source : Byte) (payload : BitVec 16) (s : State) :
    Host.Outcome State Fault Refusal :=
  .next (s.ifAttached h tag (
    match sourceOfByte source with
    | none => s.answer h tag .badArg []
    | some src =>
      if SourceId.posted src = false then s.answer h tag .badArg []
      else if (s.config src).level = 0 then s.answer h tag .disabled []
      else if Config.postLimit ≤ s.liveCount src then
        s.answer h tag .sourceFull (noHandle ++ s.postNumbers src)
      else
        match s.lowestFree with
        | none => s.answer h tag .poolFull (noHandle ++ s.postNumbers src)
        | some i =>
          let s' := (s.occurrence src payload).recompute
          s'.answer h tag .ok (wordBytes (handleWord (s'.handleOf i) 0) ++ s'.postNumbers src)))

end Sys2Proof.Machine
end

