-- ==== Sys2Proof/Machine/Link.lean ====
section
/-! DEFINITION. The meanings of DEVICE_RESET, SELECT_FALL and TRANSACTION_END (R3, R37, R131 to R139). -/

namespace Sys2Proof.Machine

/-- DEVICE_RESET returns every piece of the part's state to its reset value (R3, R37, R131). The commands
that wait are the outside's and still wait (log 5). -/
def execDeviceReset (s : State) : Host.Outcome State Fault Refusal :=
  .next { State.reset with pending := s.pending }

/-- The state with the serial side of port h replaced. -/
def State.setLink (s : State) (h : Port) (l : Link) : State := s.setPort h { s.port h with link := l }

/-- SELECT_FALL: a fall of a high select starts a transaction and captures the slot content, unless fewer
than two advances have followed the last rise; then it is not seen (R132). A select that is low stays so
(log 4). -/
def execSelectFall (h : Port) (s : State) : Host.Outcome State Fault Refusal :=
  let l := (s.port h).link
  let fallen : Progress := if Config.selectGap ≤ l.sinceRise then .shifting l.slot [] else .unseen
  .next (match l.progress with
    | .awaitHigh => s.setLink h { l with progress := fallen }
    | .idle => s.setLink h { l with progress := fallen }
    | .shifting _ _ => s
    | .unseen => s)

/-- The bits SDO sends over n rising edges: the captured content, then zeros (R132). -/
def sentBits (r : Response) (n : Nat) : List Bool :=
  (r.bytes.flatMap byteBits ++ List.replicate (n - Config.frameBits) false).take n

/-- Delivery: each notice that the captured flags showed set is cleared (R137). -/
def State.deliver (s : State) (h : Port) (captured : Response) : State :=
  let p := s.port h
  s.setPort h { p with flushed := p.flushed && !captured.flags.flushed
                       ejected := p.ejected && !captured.flags.ejected }

/-- A command of the link is taken at port h by the block that owns it (R134). -/
def takeCommand (h : Port) (tag : Byte) (c : Command) (s : State) : Host.Outcome State Fault Refusal :=
  match c with
  | .nop => execNop h tag s
  | .attach => execAttach h tag s
  | .detach => execDetach h tag s
  | .status => execStatus h tag s
  | .time => execTime h tag s
  | .lines => execLines h tag s
  | .peek => execPeek h tag s
  | .claim => execClaim h tag s
  | .claimHandle w => execClaimHandle h tag w s
  | .retire w => execRetire h tag w s
  | .extend w => execExtend h tag w s
  | .threshold t => execThreshold h tag t s
  | .post src p => execPost h tag src p s
  | .timerSetup n m p r g k => execTimerSetup h tag n m p r g k s
  | .timerStart n => execTimerStart h tag n s
  | .timerStop n => execTimerStop h tag n s
  | .timerLoad n r => execTimerLoad h tag n r s
  | .timerRead n => execTimerRead h tag n s
  | .take => execTake h tag s
  | .handover t => execHandover h tag t s
  | .eject t => execEject h tag t s
  | .sourceSet src cfg => execSourceSet h tag src cfg s
  | .sourceRead src => execSourceRead h tag src s
  | .flush => execFlush h tag s
  | .faultRead => execFaultRead h tag s
  | .trigger src => execTrigger h tag src s

/-- The incoming bits of a transaction are judged: the first case of R134 that applies decides. -/
def State.judge (s : State) (h : Port) (bits : List Bool) : Host.Outcome State Fault Refusal :=
  let bytes := frameBytes bits
  let tag := bytes.getD 1 0
  if bits.length ≠ Config.frameBits then .next (s.answer h 0 .frameError [])
  else if checkByte (bytes.take 15) ≠ bytes.getD 15 0 then .next (s.answer h tag .badCheck [])
  else
    match decodeCommand (bytes.getD 0 0) (frameArgs bytes) with
    | none => .next (s.answer h tag .unknown [])
    | some c =>
      if s.attached h = false ∧ c.openToDetached = false then .next (s.answer h tag .notAttached [])
      else takeCommand h tag c s

/-- The select of port h has risen, with the bits SDO has sent. -/
def State.selectRisen (s : State) (h : Port) (sent : List Bool) : State :=
  s.setLink h { (s.port h).link with progress := .idle, sinceRise := 0, shiftedOut := sent }

/-- TRANSACTION_END: the rise of the select of port h (R134). A rise after reset that the port was waiting
for ends no transaction (R131), a low period that was not seen ends as one of 0 edges (R132), and a select
that is high already does not rise (log 4). -/
def execTransactionEnd (h : Port) (sdi : List Bool) (s : State) : Host.Outcome State Fault Refusal :=
  match (s.port h).link.progress with
  | .idle => .next s
  | .awaitHigh => .next (s.selectRisen h [])
  | .unseen => (s.selectRisen h []).judge h []
  | .shifting captured received =>
    let bits := received ++ sdi
    let ended := s.selectRisen h (sentBits captured bits.length)
    let delivered := if Config.frameBits ≤ bits.length then ended.deliver h captured else ended
    delivered.judge h bits

end Sys2Proof.Machine
end

