-- ==== Sys2Proof/Machine/Dispatch.lean ====
section
/-! DEFINITION. One arm for each row of the opcode table. -/

namespace Sys2Proof.Machine

open Sys2Proof

def exec (i : Instr) (s : State) : Host.Outcome State Fault Refusal :=
  match i with
  | .deviceReset => Sys2Proof.Machine.execDeviceReset s
  | .transactionEnd h sdi => Sys2Proof.Machine.execTransactionEnd h sdi s
  | .nop h tag => Sys2Proof.Machine.execNop h tag s
  | .attach h tag => Sys2Proof.Machine.execAttach h tag s
  | .detach h tag => Sys2Proof.Machine.execDetach h tag s
  | .status h tag => Sys2Proof.Machine.execStatus h tag s
  | .time h tag => Sys2Proof.Machine.execTime h tag s
  | .lines h tag => Sys2Proof.Machine.execLines h tag s
  | .peek h tag => Sys2Proof.Machine.execPeek h tag s
  | .claim h tag => Sys2Proof.Machine.execClaim h tag s
  | .claimHandle h tag word => Sys2Proof.Machine.execClaimHandle h tag word s
  | .retire h tag word => Sys2Proof.Machine.execRetire h tag word s
  | .extend h tag word => Sys2Proof.Machine.execExtend h tag word s
  | .threshold h tag value => Sys2Proof.Machine.execThreshold h tag value s
  | .post h tag source payload => Sys2Proof.Machine.execPost h tag source payload s
  | .timerSetup h tag timer mode prescale reload gate chain => Sys2Proof.Machine.execTimerSetup h tag timer mode prescale reload gate chain s
  | .timerStart h tag timer => Sys2Proof.Machine.execTimerStart h tag timer s
  | .timerStop h tag timer => Sys2Proof.Machine.execTimerStop h tag timer s
  | .timerLoad h tag timer reload => Sys2Proof.Machine.execTimerLoad h tag timer reload s
  | .timerRead h tag timer => Sys2Proof.Machine.execTimerRead h tag timer s
  | .take h tag => Sys2Proof.Machine.execTake h tag s
  | .handover h tag target => Sys2Proof.Machine.execHandover h tag target s
  | .eject h tag target => Sys2Proof.Machine.execEject h tag target s
  | .sourceSet h tag source config => Sys2Proof.Machine.execSourceSet h tag source config s
  | .sourceRead h tag source => Sys2Proof.Machine.execSourceRead h tag source s
  | .flush h tag => Sys2Proof.Machine.execFlush h tag s
  | .faultRead h tag => Sys2Proof.Machine.execFaultRead h tag s
  | .trigger h tag source => Sys2Proof.Machine.execTrigger h tag source s
  | .timebaseAdvance pins order held => Sys2Proof.Machine.execTimebaseAdvance pins order held s
  | .timerExpiry n chainOrder => Sys2Proof.Machine.execTimerExpiry n chainOrder s
  | .serviceExpiry h entry => Sys2Proof.Machine.execServiceExpiry h entry s
  | .collectionExpiry slot => Sys2Proof.Machine.execCollectionExpiry slot s
  | .affinityExpiry slot => Sys2Proof.Machine.execAffinityExpiry slot s
  | .selectFall h => Sys2Proof.Machine.execSelectFall h s

end Sys2Proof.Machine
end

