-- ==== Sys2Proof/Safety.lean ====
section
/-! DEFINITION. The laws of the part: what every state that a run reaches keeps, in the words of the
rules, and the frames in which the statements speak of what a row leaves unchanged. -/

namespace Sys2Proof.Machine

/-! ## Words about tickets and entries -/

/-- The ticket is WAITING. -/
def Ticket.waits (t : Ticket) : Bool := t.standing == .waiting

/-- The ticket is SPREAD. -/
def Ticket.inRound (t : Ticket) : Bool :=
  match t.standing with
  | .spread _ _ _ => true
  | _ => false

/-- The owed set of a SPREAD ticket; empty for any other (R21). -/
def Ticket.owed (t : Ticket) : HostSet :=
  match t.standing with
  | .spread owed _ _ => owed
  | _ => 0

/-- The claimed set of a SPREAD ticket; empty for any other (R21). -/
def Ticket.claimed (t : Ticket) : HostSet :=
  match t.standing with
  | .spread _ claimed _ => claimed
  | _ => 0

/-- Host h works on the ticket: it is the holder, or it is in the claimed set (R23). -/
def Ticket.workedBy (t : Ticket) (h : Port) : Bool :=
  match t.standing with
  | .waiting => false
  | .held g => g == h
  | .spread _ claimed _ => HostSet.has claimed h

/-- The number of ACTIVE entries with a handle on the stack of host h. -/
def State.activeNaming (s : State) (h : Port) (hd : Handle) : Nat :=
  (s.port h).stack.countP fun e => e.state == .active && e.handle == hd

/-! ## Laws of the pool -/

/-- The creation order holds each live ticket exactly once and no FREE one (R26). -/
abbrev State.OrderLaw (s : State) : Prop :=
  s.pool.order.Nodup ∧ ∀ i : SlotId, i ∈ s.pool.order ↔ (s.ticketAt i).isSome = true

/-- While any source is deferred, the pool has no free slot (R34). -/
abbrev State.NoRoomLaw (s : State) : Prop :=
  (∃ src : SourceId, (s.deferralOf src).isSome = true) → ∀ i : SlotId, (s.ticketAt i).isSome = true

/-- The ranges and presences of the fields of a live ticket (R2, R21, R23, R24, R25). -/
abbrev Ticket.Law (t : Ticket) : Prop :=
  t.level ≠ 0 ∧ (1 ≤ t.count ∧ t.count ≤ Config.maxCount) ∧ t.retryLimit ≠ 0
    ∧ (if t.policy = .each then t.lapses = 0 else t.lapses < t.retryLimit.val)
    ∧ (t.payload.isSome = SourceId.posted t.source)
    ∧ (t.policy = .single → t.inRound = false)
    ∧ (t.policy = .each → t.inRound = true ∨ t.waits = true)
    ∧ (t.inRound = true → t.owed ≠ 0)
    ∧ t.claimed &&& ~~~ t.owed = 0
    ∧ (t.source = faultSource → t.policy = .single ∧ t.serviceLimit = 0)

/-- Every live ticket keeps the ranges of its fields (R21). -/
abbrev State.TicketLaw (s : State) : Prop := ∀ i : SlotId, ∀ t ∈ s.ticketAt i, Ticket.Law t

/-- A deferred source is enabled, is not a posted source, has no WAITING ticket, and counts 1 to 255
(R10, R24, R33). -/
abbrev State.DeferralLaw (s : State) : Prop :=
  ∀ src : SourceId, ∀ d ∈ s.deferralOf src,
    (1 ≤ d.count ∧ d.count ≤ Config.maxCount) ∧ (s.config src).level ≠ 0 ∧ SourceId.posted src = false
      ∧ ∀ i : SlotId, ∀ t ∈ s.ticketAt i, t.source = src → t.waits = false

/-- A source other than a posted source has at most one WAITING ticket (R32). -/
abbrev State.OneWaitingLaw (s : State) : Prop :=
  ∀ i j : SlotId, ∀ t ∈ s.ticketAt i, ∀ u ∈ s.ticketAt j,
    t.source = u.source → SourceId.posted t.source = false → t.waits = true → u.waits = true → i = j

/-- A source has at most one SPREAD ticket (R56). -/
abbrev State.OneRoundLaw (s : State) : Prop :=
  ∀ i j : SlotId, ∀ t ∈ s.ticketAt i, ∀ u ∈ s.ticketAt j,
    t.source = u.source → t.inRound = true → u.inRound = true → i = j

/-- A posted source has at most four non-FREE tickets (R100). -/
abbrev State.PostLaw (s : State) : Prop :=
  ∀ src : SourceId, SourceId.posted src = true → s.liveCount src ≤ Config.postLimit

/-! ## Laws of the hosts -/

/-- A stack holds at most four entries, and their levels rise strictly from bottom to top (R63). -/
abbrev State.StackLaw (s : State) : Prop :=
  ∀ h : Port, (s.port h).stack.length ≤ Config.stackDepth
    ∧ (s.port h).stack.Pairwise fun upper lower => lower.level < upper.level

/-- An ACTIVE entry names a live ticket that its host works on, with its source and level; and a host
works on a ticket through exactly one ACTIVE entry (R63). -/
abbrev State.HoldingLaw (s : State) : Prop :=
  (∀ h : Port, ∀ e ∈ (s.port h).stack, e.state = .active →
    ∃ t ∈ s.named e.handle, t.source = e.source ∧ t.level = e.level ∧ t.workedBy h = true)
  ∧ ∀ i : SlotId, ∀ t ∈ s.ticketAt i, ∀ h : Port, t.workedBy h = true → s.activeNaming h (s.handleOf i) = 1

/-- The token is held only by an ATTACHED port (R118). -/
abbrev State.TokenLaw (s : State) : Prop := ∀ h ∈ s.token, s.attached h = true

/-- A DETACHED port has an empty stack and owns no running timer (R78, R139). -/
abbrev State.DetachedLaw (s : State) : Prop :=
  ∀ h : Port, s.attached h = false →
    (s.port h).stack = [] ∧ ∀ n : TimerId, (s.timer n).ownedBy h = false

/-- A DETACHED port is in no owed set and has no reservation (R48, R139). -/
abbrev State.AbsentLaw (s : State) : Prop :=
  ∀ h : Port, s.attached h = false → ∀ i : SlotId, ∀ t ∈ s.ticketAt i,
    HostSet.has t.owed h = false ∧ ∀ r ∈ t.reservation, r.host ≠ h

/-- Every ATTN line is low exactly while its host has an offer (R43). -/
abbrev State.AttentionLaw (s : State) : Prop := ∀ h : Port, (s.port h).attn = (s.offer h).isSome

/-! ## Laws of the timers and of supervision -/

/-- The ranges of a timer record: a running timer has an owner and a count that is not 0, a stopped one
has no owner, the reload is not 0, and a CHAINED timer is not chained to itself (R108). -/
abbrev State.TimerLaw (s : State) : Prop :=
  ∀ n : TimerId,
    (s.timer n).owner.isSome = (s.timer n).running
      ∧ ((s.timer n).running = true → (s.timer n).count ≠ 0)
      ∧ (s.timer n).reload ≠ 0
      ∧ ((s.timer n).mode = .chained → (s.timer n).chain ≠ n)

/-- The fault queue holds at most eight records (R126). -/
abbrev State.FaultLaw (s : State) : Prop := s.faults.records.length ≤ Config.faultDepth

/-- While the fault queue is empty, source 48 has no WAITING ticket and is not deferred (R129). -/
abbrev State.FaultSourceLaw (s : State) : Prop :=
  s.faults.records = [] →
    s.deferralOf faultSource = none
      ∧ ∀ i : SlotId, ∀ t ∈ s.ticketAt i, t.source = faultSource → t.waits = false

/-- The ranges of a source's record (R1, R11). -/
abbrev State.SourceLaw (s : State) : Prop :=
  ∀ src : SourceId,
    (s.config src).retryLimit ≠ 0
      ∧ ((s.config src).policy = .each → (s.config src).preferred = none)
      ∧ (∀ h ∈ (s.config src).preferred, HostSet.has (s.config src).eligible h = true)
      ∧ ((SourceId.line src).isNone = true → (s.config src).sense = .rising ∧ (s.config src).filter = 0)

/-- All the laws of the pool, the hosts, the timers and supervision together. -/
structure State.Lawful (s : State) : Prop where
  order : s.OrderLaw
  noRoom : s.NoRoomLaw
  ticket : s.TicketLaw
  deferral : s.DeferralLaw
  oneWaiting : s.OneWaitingLaw
  oneRound : s.OneRoundLaw
  post : s.PostLaw
  stack : s.StackLaw
  holding : s.HoldingLaw
  token : s.TokenLaw
  detached : s.DetachedLaw
  absent : s.AbsentLaw
  attention : s.AttentionLaw
  timer : s.TimerLaw
  fault : s.FaultLaw
  faultSource : s.FaultSourceLaw
  source : s.SourceLaw

/-! ## Responses and frames -/

/-- Port h holds a response made in this state: its status, its tag, its data bytes (those not named are
00h), the port flags as they now stand, and the check byte of its first 15 bytes (R133, R136, R143). -/
abbrev State.Answered (t : State) (h : Port) (tag : Byte) (status : Status) (data : List Byte) : Prop :=
  (t.port h).link.slot.status = status ∧ (t.port h).link.slot.tag = tag
    ∧ (∀ k : Fin 12, look (t.port h).link.slot.data k = data.getD k.val 0)
    ∧ (t.port h).link.slot.flags = t.portFlags h
    ∧ (t.port h).link.slot.check = checkByte ((t.port h).link.slot.bytes.take 15)

/-- From s to t nothing changes but the response slot of port h. -/
abbrev OnlyAnswers (s t : State) (h : Port) : Prop :=
  t = { s with ports :=
          place s.ports h { s.port h with link := { (s.port h).link with slot := (t.port h).link.slot } } }

/-- From s to t port h becomes p and every other port stays, but for the ATTN lines, which follow the
offers of t, and for the response slot of port h. -/
abbrev PortsBecome (s t : State) (h : Port) (p : HostPort) : Prop :=
  ∀ g : Port, t.port g =
    { (if g = h then p else s.port g) with
      attn := (t.offer g).isSome
      link := { (s.port g).link with
                slot := if g = h then (t.port h).link.slot else (s.port g).link.slot } }

/-- From s to t slot i becomes x and every other slot stays. -/
abbrev SlotBecomes (s t : State) (i : SlotId) (x : Slot) : Prop :=
  ∀ j : SlotId, t.slotAt j = if j = i then x else s.slotAt j

/-- The bytes of a stream of incoming bits: byte 0 first, and bit 7 of a byte first (R132, R143). -/
abbrev InWireOrder (bits : List Bool) : Prop :=
  frameBytes bits = (List.range 16).map (streamByte bits)
    ∧ ∀ (k : Fin 16) (j : Fin 8),
        (streamByte bits k.val).getLsbD j.val = bits.getD (8 * k.val + (7 - j.val)) false

/-- No source is deferred. -/
abbrev State.NothingDeferred (s : State) : Prop := ∀ src : SourceId, s.deferralOf src = none

/-- The condition behind a source has gone or is none: its line is not at the active level of a level
sense, and it is not the fault source with a record in the queue (R73, R74). -/
abbrev State.NoCause (s : State) (src : SourceId) : Prop :=
  s.lineActive src = false ∧ (src = faultSource → s.faults.records = [])

/-- The number a handle-and-source word spells (R144). -/
def wireWord (hd : Handle) (low : Nat) : Nat := 1024 * hd.slot.val + 64 * hd.generation.val + low

/-- The fault queue after the append of a record (R127). -/
def FaultQueue.appended (q : FaultQueue) (r : FaultRecord) : FaultQueue :=
  if q.records.length < Config.faultDepth then { q with records := q.records ++ [r] }
  else { q with overflow := true }

/-- The deferred source that R33 serves: no other deferred source has a higher level, and none of the same
level has a lower number. -/
abbrev State.FirstDeferred (s : State) (src : SourceId) : Prop :=
  (s.deferralOf src).isSome = true ∧ ∀ other : SourceId, (s.deferralOf other).isSome = true →
    (s.config other).level < (s.config src).level
      ∨ ((s.config other).level = (s.config src).level ∧ src ≤ other)

/-- From s to t a source has one occurrence, taken by the first case of R9 that applies. The source is none
of the posted ones, whose occurrences are POSTs (R98, R99). -/
abbrev Occurs (s t : State) (src : SourceId) : Prop :=
  t = { s with pool := t.pool }
    ∧ ((s.config src).level = 0 → t.pool = s.pool)
    ∧ ((s.config src).level ≠ 0 →
      (∀ i ∈ s.waitingTicket src, ∀ u ∈ s.ticketAt i,
        SlotBecomes s t i { s.slotAt i with ticket := some { u with count := min (u.count + 1) 255 } }
        ∧ t.pool.order = s.pool.order ∧ t.pool.deferrals = s.pool.deferrals)
      ∧ (s.waitingTicket src = none →
        (∀ d ∈ s.deferralOf src,
          t.pool = { s.pool with
              deferrals := place s.pool.deferrals src (some { d with count := min (d.count + 1) 255 }) })
        ∧ (s.deferralOf src = none →
          (∀ i : SlotId, s.ticketAt i = none → (∀ k : SlotId, k < i → (s.ticketAt k).isSome = true) →
            SlotBecomes s t i { s.slotAt i with ticket := some (s.newTicket src 1 s.timebase none) }
            ∧ t.pool.order = s.pool.order ++ [i] ∧ t.pool.deferrals = s.pool.deferrals)
          ∧ ((∀ i : SlotId, (s.ticketAt i).isSome = true) →
            t.pool = { s.pool with
                deferrals := place s.pool.deferrals src (some { count := 1, stamp := s.timebase }) }))))

/-- From s to t the live ticket in slot i becomes FREE. With no source deferred the slot stays free;
otherwise it is granted at once to the deferred source that R33 serves (R31, R33, R34). -/
abbrev Frees (s t : State) (i : SlotId) : Prop :=
  t = { s with pool := t.pool }
    ∧ (s.NothingDeferred →
      SlotBecomes s t i { generation := (s.slotAt i).generation + 1, ticket := none }
      ∧ t.pool.order = s.pool.order.erase i ∧ t.pool.deferrals = s.pool.deferrals)
    ∧ ∀ src : SourceId, s.FirstDeferred src → ∀ d ∈ s.deferralOf src,
      SlotBecomes s t i
        { generation := (s.slotAt i).generation + 1, ticket := some (s.newTicket src d.count d.stamp none) }
      ∧ t.pool.order = s.pool.order.erase i ++ [i]
      ∧ t.pool.deferrals = place s.pool.deferrals src none

/-- From s to t the pending work of a source is withdrawn: its WAITING ticket is freed, and it is not
deferred any more (R7). -/
abbrev Withdraws (s t : State) (src : SourceId) : Prop :=
  t = { s with pool := t.pool }
    ∧ (s.waitingTicket src = none →
      t.pool = { s.pool with deferrals := place s.pool.deferrals src none })
    ∧ ∀ i ∈ s.waitingTicket src,
      t.pool = { (s.freeTicket i).pool with
          deferrals := place (s.freeTicket i).pool.deferrals src none }

/-- The line of a source whose sense is HIGH or LOW is at the active level of that sense, or, for `active`
false, at the other. No other sense and no other source has such a level (R5). -/
abbrev State.LineAt (s : State) (src : SourceId) (active : Bool) : Prop :=
  ∃ n : LineId, lineSource n = src
    ∧ (((s.config src).sense = .high ∧ (s.line n).recognised = active)
      ∨ ((s.config src).sense = .low ∧ (s.line n).recognised = !active))

/-- The re-arm check of a source: one occurrence if it has no live ticket and its line is still active, or,
for source 48, the fault queue holds a record (R73, R74). -/
def State.rearmCheck (s : State) (src : SourceId) : State :=
  if (s.lineActive src = true ∨ (src = faultSource ∧ s.faults.records ≠ [])) ∧ s.liveCount src = 0 then
    s.occurrence src
  else s

/-- From s to t host h leaves the round of ticket u in slot i, which is SPREAD over the owed hosts. The ticket
stays SPREAD while somebody is owed; otherwise it settles, with the re-arm check of its source (R70, R86, R89,
R90). -/
abbrev LeavesRound (s t : State) (h : Port) (i : SlotId) (u : Ticket) (owed claimed : HostSet)
    (expiry : Option Time) : Prop :=
  ((∃ p : Port, p ≠ h ∧ HostSet.has owed p = true) →
    t = { s with
          pool :=
            { s.pool with
              slots := place s.pool.slots i
                { s.slotAt i with ticket := some { u with
                    standing :=
                      .spread (owed &&& ~~~ HostSet.only h) (claimed &&& ~~~ HostSet.only h) expiry } } } })
  ∧ ((∀ p : Port, p ≠ h → HostSet.has owed p = false) → t = (s.freeTicket i).rearmCheck u.source)

/-- What a recognised change of line n to a level does to its source, by the table of R5 (R6, R7). -/
def State.afterChange (s : State) (n : LineId) (high : Bool) : State :=
  match (s.config (lineSource n)).sense with
  | .rising => if high then s.occurrence (lineSource n) else s
  | .falling => if high then s else s.occurrence (lineSource n)
  | .both => s.occurrence (lineSource n)
  | .high => if high then s.occurrence (lineSource n) else s.withdraw (lineSource n)
  | .low => if high then s.withdraw (lineSource n) else s.occurrence (lineSource n)

/-- A sample of line n at a level makes a recognised change (R4). -/
abbrev State.Changes (s : State) (n : LineId) (high : Bool) : Prop :=
  (s.line n).sampled = true ∧ high ≠ (s.line n).recognised
    ∧ (s.config (lineSource n)).filter.val < (s.line n).run + 1

/-- No timer runs, and no service, collection or affinity expiry that is watched comes at an instant. -/
abbrev State.QuietAt (s : State) (now : Time) : Prop :=
  (∀ n : TimerId, (s.timer n).running = false)
    ∧ (∀ h : Port, ∀ e ∈ (s.port h).stack, e.state = .active → e.expiry ≠ some now)
    ∧ ∀ i : SlotId, ∀ u ∈ s.ticketAt i,
      u.standing ≠ .spread u.owed u.claimed (some now) ∧ ∀ r ∈ u.reservation, r.expiry ≠ now

/-- Timer m expires in the event of an expiry of timer n, `depth` links down the chain: it runs, it is
CHAINED to a timer that expires so, and the step it takes is its last (R110, R111). -/
def State.expiresBelow (s : State) (n : TimerId) (depth : Nat) (m : TimerId) : Bool :=
  match depth with
  | 0 => m == n
  | d + 1 =>
    (s.timer m).running && (s.timer m).mode == .chained && (s.timer m).count == 1
      && s.expiresBelow n d (s.timer m).chain

/-- Timer m expires in the event of an expiry of timer n; a chain is at most eight timers long. -/
def State.expiresWith (s : State) (n m : TimerId) : Bool :=
  (List.range 8).any fun depth => s.expiresBelow n depth m

/-- The row of its own that takes an expiry, with the order in which the occurrences of a timer's chain come;
the sample of a line has none (log 7). -/
def rowTaking (chainOrder : List TimerId) : AdvanceEvent → Option Instr
  | .line _ => none
  | .timer n => some (.timerExpiry n chainOrder)
  | .service h k => some (.serviceExpiry h k)
  | .collection i => some (.collectionExpiry i)
  | .affinity i => some (.affinityExpiry i)

/-- The timers that a list of events names, in its order. -/
def timersOf (events : List AdvanceEvent) : List TimerId :=
  events.filterMap fun x => match x with
    | .timer n => some n
    | _ => none

/-- An expiry comes at an instant, or, for a timer, a boundary of its prescale does (R79, R109). -/
abbrev State.Reaches (s : State) (now : Time) (x : AdvanceEvent) : Prop :=
  match x with
  | .line _ => False
  | .timer n =>
    (s.timer n).running = true ∧ ((s.timer n).mode = .periodic ∨ (s.timer n).mode = .oneshot)
      ∧ now.toNat % (s.timer n).prescale.steps = 0
  | .service h k => ∃ e ∈ (s.port h).stack[k.val]?, e.state = .active ∧ e.expiry = some now
  | .collection i => ∃ u ∈ s.ticketAt i, u.standing = .spread u.owed u.claimed (some now)
  | .affinity i => ∃ u ∈ s.ticketAt i, ∃ r ∈ u.reservation, r.expiry = now

/-- No expiry of the present instant is left over from an advance that held it (log 7). -/
abbrev State.NothingLeft (s : State) : Prop :=
  ∀ x : AdvanceEvent, (rowTaking [] x).isSome = true → s.isDue x = false

/-- From s to t port h becomes p and every other port stays, but for the ATTN lines, which follow the
offers of t. No response is made. -/
abbrev PortsFollow (s t : State) (h : Port) (p : HostPort) : Prop :=
  ∀ g : Port, t.port g = { (if g = h then p else s.port g) with attn := (t.offer g).isSome }

/-- The condition that a returned ticket of the source stands for is still there: its line is not at the
inactive level of a level sense, and for the fault source the queue holds a record (R83). -/
abbrev State.StillStands (s : State) (src : SourceId) : Prop :=
  s.lineInactive src = false ∧ (src = faultSource → s.faults.records ≠ [])

/-- From s to t, a departure of port g with no source deferred, each HELD ticket of g that meets no other
ticket of its source on the way is returned: it waits again in its place, unreserved for g and with its
lapse count as it was, or it is gone if its condition is. The count of a returned fault ticket takes the
occurrence of the HOST_RELEASED record (R83, R89, R91). -/
abbrev Returns (s t : State) (g : Port) : Prop :=
  ∀ i : SlotId, ∀ u ∈ s.ticketAt i, u.standing = .held g → s.NothingDeferred →
    (SourceId.posted u.source = true ∨ (s.waitingTicket u.source = none
      ∧ ∀ j : SlotId, j ≠ i → ∀ v ∈ s.ticketAt j, v.source = u.source → v.standing ≠ .held g)) →
    (s.StillStands u.source →
      t.slotAt i =
        { s.slotAt i with
          ticket := some
            { u with
              standing := .waiting
              reservation := u.reservation.filter fun r => r.host ≠ g
              count := if u.source = faultSource ∧ s.faultLevel ≠ 0 then min (u.count + 1) 255 else u.count } })
    ∧ (¬ s.StillStands u.source → t.named (s.handleOf i) = none)

/-- The ticket v, WAITING, after the returned ticket u of its source has merged into it; `older` says that u
stands before v in the creation order (R84). -/
def Ticket.joinedBy (v u : Ticket) (older : Bool) : Ticket :=
  { v with
    count := min (u.count + v.count) 255
    stamp := if older then u.stamp else v.stamp
    lapses :=
      if v.policy = .each then 0 else min (if older then u.lapses else v.lapses) (v.retryLimit.val - 1) }

/-- From s to t the ticket in slot i, taken back from its holder, is returned by the first case of R83 that
applies: it is freed, or it merges and is freed, or it waits again in its place, with the count of its
source's deferral if there is one. A merge puts the survivor in the older of the two places (R27, R84). -/
abbrev GivesBack (s t : State) (i : SlotId) : Prop :=
  ∀ u ∈ s.ticketAt i, u.waits = false →
    (¬ s.StillStands u.source → t = s.freeTicket i)
    ∧ (s.StillStands u.source →
      (∀ w ∈ s.waitingTicket u.source, ∀ v ∈ s.ticketAt w, SourceId.posted u.source = false →
        t = State.freeTicket
          { s with
            pool :=
              { s.pool with
                slots := place s.pool.slots w
                  { s.slotAt w with
                    ticket := some (v.joinedBy u (s.pool.order.idxOf i < s.pool.order.idxOf w)) }
                order :=
                  if s.pool.order.idxOf i < s.pool.order.idxOf w then
                    (s.pool.order.erase w).flatMap fun j => if j = i then [w, i] else [j]
                  else s.pool.order } } i)
      ∧ ((SourceId.posted u.source = true ∨ s.waitingTicket u.source = none) →
        t = { s with
              pool :=
                { s.pool with
                  slots := place s.pool.slots i
                    { s.slotAt i with ticket := some { u with
                        standing := .waiting
                        count := match s.deferralOf u.source with
                          | none => u.count
                          | some d => min (u.count + d.count) 255 } }
                  deferrals := place s.pool.deferrals u.source none } }))

/-- Every reservation for host g ends (R48). -/
def State.unreserved (s : State) (g : Port) : State :=
  { s with
    pool :=
      { s.pool with
        slots := fill fun i =>
          { s.slotAt i with
            ticket := (s.ticketAt i).map fun v =>
              { v with reservation := v.reservation.filter fun r => r.host ≠ g } } } }

/-- The ticket of an entry that a release has taken off the stack of host g is dealt with, by the table of
R89. -/
def State.releasedEntry (s : State) (g : Port) (e : Entry) : State :=
  match e.state, s.named e.handle with
  | .active, some u =>
    match u.standing with
    | .held _ => s.returnTicket e.handle.slot
    | .spread _ _ _ => s.leaveRound g e.handle.slot
    | .waiting => s
  | _, _ => s

/-- The entries of host g are taken off its stack one at a time, from the top (R89). -/
def State.releasedStack (s : State) (g : Port) (entries : List Entry) : State :=
  match entries with
  | [] => s
  | e :: rest => ((s.setStack g rest).releasedEntry g e).releasedStack g rest

/-- The rounds that owe host g and that it has not claimed, oldest first (R90). -/
def State.unclaimedBy (s : State) (g : Port) : List SlotId :=
  s.pool.order.filter fun i =>
    (s.ticketAt i).any fun u => HostSet.has u.owed g && !HostSet.has u.claimed g

/-- The pool's part of a release of host g, in the order of R91: the reservations end, the stack is emptied,
the unclaimed rounds are left, and the record, if there is one, is an occurrence of source 48 (R48, R89, R90,
R91, R127). -/
def State.released (s : State) (g : Port) : State :=
  let emptied := (s.unreserved g).releasedStack g (s.port g).stack
  let dropped := (emptied.unclaimedBy g).foldl (fun (x : State) i => x.leaveRound g i) emptied
  if s.activeEntries g = 0 then dropped else dropped.occurrence faultSource

/-- What a departure of port g leaves in t, from s: g is DETACHED with an empty stack, no round, no ticket
in hand, no reservation and no running timer; a ticket in service that g has no part in, the other timers,
the sources, the lines and the timebase stay; and one record tells of the ACTIVE entries, if there were any. The pool is
that of the release; a reservation for g that a grant of the release itself made is gone too (R91, R123, R139,
R141; the last is log 12). -/
abbrev Departed (s t : State) (g : Port) : Prop :=
  (t.port g).state = .detached ∧ (t.port g).stack = [] ∧ (t.port g).attn = false
    ∧ (t.port g).threshold = (s.port g).threshold
    ∧ (∀ i : SlotId, ∀ u ∈ t.ticketAt i,
        HostSet.has u.owed g = false ∧ u.workedBy g = false ∧ ∀ r ∈ u.reservation, r.host ≠ g)
    ∧ (∀ i : SlotId, ∀ u ∈ s.ticketAt i, u.waits = false → HostSet.has u.owed g = false →
        u.workedBy g = false → (∀ r ∈ u.reservation, r.host ≠ g) → t.slotAt i = s.slotAt i)
    ∧ Returns s t g ∧ t.pool = ((s.released g).unreserved g).pool
    ∧ (∀ n : TimerId, t.timer n =
        if (s.timer n).running = true ∧ (s.timer n).owner = some g then
          { s.timer n with running := false, owner := none, stepDue := false }
        else s.timer n)
    ∧ t.faults =
        (if s.activeEntries g = 0 then s.faults
         else s.faults.appended (.hostReleased g (s.activeEntries g) s.timebase))
    ∧ (t.timebase = s.timebase ∧ t.sources = s.sources ∧ t.faultLevel = s.faultLevel ∧ t.lines = s.lines
        ∧ t.pending = s.pending)
    ∧ ∀ p : Port, p ≠ g → (t.port p).state = (s.port p).state ∧ (t.port p).threshold = (s.port p).threshold
        ∧ (t.port p).stack = (s.port p).stack ∧ (t.port p).flushed = (s.port p).flushed
        ∧ (t.port p).ejected = (s.port p).ejected ∧ (t.port p).attn = (t.offer p).isSome

/-- The two bytes of a number below 65536, most significant first (R143). -/
def bytesOf16 (n : Nat) : List Byte := [BitVec.ofNat 8 (n / 256), BitVec.ofNat 8 n]

/-- The six bytes of a 48-bit value, most significant first (R143). -/
def bytesOf48 (t : Time) : List Byte :=
  (List.range 6).map fun k => BitVec.ofNat 8 (t.toNat / 2 ^ (40 - 8 * k))

end Sys2Proof.Machine
end

