-- ==== Sys2Proof/Certificates/Slice0/Obligations.lean ====
section
/-! DEFINITION. The statements about the CJ448, for the provers. Each says what a row or a law of the spec
does over every state; what the model chose is named in the statement's docstring. -/

open Sys2Proof Sys2Proof.Machine

/-! ## The step and the reset -/

/-- A step takes the command at the front of the queue, and runs it on the state with the queue's rest
(the queue is the model's, log 1). -/
def Obligations.StepTakesFrontCommand : Prop :=
  ∀ (c : Instr) (rest : List Instr) (s : State),
    step { s with pending := c :: rest } = exec c { s with pending := rest }

/-- DEVICE_RESET gives every record its reset value (R3, R37, R65, R105, R108, R118, R126, R131) and leaves
the queue of the outside (log 5). -/
def Obligations.DeviceResetRestoresResetValues : Prop :=
  ∀ s : State, ∃ t : State, exec .deviceReset s = .next t
    ∧ t.timebase = 0 ∧ t.token = none ∧ t.faults.records = [] ∧ t.faults.overflow = false
    ∧ t.pending = s.pending ∧ t.pool.order = [] ∧ t.faultLevel = 0
    ∧ (∀ i : SlotId, t.slotAt i = { generation := 0, ticket := none })
    ∧ (∀ src : SourceId, t.deferralOf src = none ∧ (t.config src).level = 0)
    ∧ (∀ src : SourceId, src ≠ faultSource → t.config src =
        { level := 0, policy := .single, eligible := 0, preferred := none, window := 0, serviceLimit := 0
          retryLimit := 1, sense := .rising, filter := 0 })
    ∧ (∀ n : LineId, (t.line n).recognised = false ∧ (t.line n).run = 0 ∧ (t.line n).sampled = false)
    ∧ (∀ n : TimerId, t.timer n =
        { mode := .off, prescale := .by1, reload := 1, count := 0, running := false, owner := none
          gate := none, chain := 0, stepDue := false })
    ∧ (∀ h : Port, (t.port h).state = .detached ∧ (t.port h).threshold = 15 ∧ (t.port h).stack = []
        ∧ (t.port h).flushed = false ∧ (t.port h).ejected = false ∧ (t.port h).attn = false
        ∧ t.offer h = none ∧ (t.port h).link.progress = .awaitHigh
        ∧ t.Answered h 0 .none [])

/-! ## The link -/

/-- A fall of a high select is seen, and captures the slot content, exactly when two advances have followed
the last rise; a fall that is not seen captures nothing (R132). A rise that the port waits for after reset
ends no transaction (R131); the rise after a fall that was not seen is a FRAME_ERROR (R132). That a fall may
come while the port waits for a high select, which shows that the select was high, is the model's choice, and
so is that this fall need not wait for advances after a reset (log 5). A fall of a low select and a rise of a
high one change nothing (the model's choice, log 4). -/
def Obligations.SelectEdgesOutsideTransaction : Prop :=
  ∀ (h : Port) (s : State),
    (∃ t : State, exec (.selectFall h) s = .next t ∧
      (((s.port h).link.progress = .idle ∨ (s.port h).link.progress = .awaitHigh) →
        t = s.setLink h { (s.port h).link with
          progress := if 2 ≤ (s.port h).link.sinceRise then .shifting (s.port h).link.slot [] else .unseen })
      ∧ ((s.port h).link.progress ≠ .idle → (s.port h).link.progress ≠ .awaitHigh → t = s))
    ∧ ∀ sdi : List Bool, (∀ cap rec, (s.port h).link.progress ≠ .shifting cap rec) →
      ∃ t : State, exec (.transactionEnd h sdi) s = .next t ∧
        ((s.port h).link.progress = .awaitHigh →
          t = s.setLink h { (s.port h).link with progress := .idle, sinceRise := 0, shiftedOut := [] })
        ∧ ((s.port h).link.progress = .idle → t = s)
        ∧ ((s.port h).link.progress = .unseen →
          t = s.setLink h { slot := (t.port h).link.slot, progress := .idle, sinceRise := 0, shiftedOut := [] }
          ∧ t.Answered h 0 .frameError [])

/-- A transaction whose edge count is not exactly 128 takes no command and leaves FRAME_ERROR with tag 00h.
Content shifted out whole, over more than 128 edges, was delivered, and the notices it showed are cleared;
over fewer edges they stay (R134, R137). -/
def Obligations.WrongEdgeCountIsFrameError : Prop :=
  ∀ (h : Port) (sdi rec : List Bool) (cap : Response) (s : State),
    (s.port h).link.progress = .shifting cap rec → rec.length + sdi.length ≠ 128 →
    ∃ t : State, exec (.transactionEnd h sdi) s = .next t
      ∧ t = s.setPort h
          { s.port h with
            flushed := if 128 < rec.length + sdi.length then (s.port h).flushed && !cap.flags.flushed else (s.port h).flushed
            ejected := if 128 < rec.length + sdi.length then (s.port h).ejected && !cap.flags.ejected else (s.port h).ejected
            link := { slot := (t.port h).link.slot, progress := .idle, sinceRise := 0
                      shiftedOut := (t.port h).link.shiftedOut } }
      ∧ t.Answered h 0 .frameError []

/-- A transaction of 128 edges whose check byte does not match takes no command and is answered BAD_CHECK;
one with a code that is not among the 26 is answered UNKNOWN. Both echo the tag, and both have delivered the
captured content. The incoming bits are read as bytes, byte 0 first and bit 7 first (R132, R134, R137, R145). -/
def Obligations.CorruptOrUnknownFrameTakesNoCommand : Prop :=
  (∀ bits : List Bool, InWireOrder bits)
  ∧ ∀ (h : Port) (bits : List Bool) (cap : Response) (s : State),
    (s.port h).link.progress = .shifting cap [] → bits.length = 128 →
    (checkByte ((frameBytes bits).take 15) ≠ (frameBytes bits).getD 15 0
      ∨ (streamByte bits 0).toNat ∉
          [0x00, 0x01, 0x02, 0x03, 0x04, 0x05, 0x10, 0x11, 0x12, 0x13, 0x14, 0x15, 0x16, 0x20, 0x21, 0x22, 0x23,
           0x24, 0x30, 0x31, 0x32, 0x33, 0x34, 0x35, 0x36, 0x37]) →
    ∃ t : State, exec (.transactionEnd h bits) s = .next t
      ∧ t = s.setPort h
          { s.port h with
            flushed := (s.port h).flushed && !cap.flags.flushed
            ejected := (s.port h).ejected && !cap.flags.ejected
            link := { slot := (t.port h).link.slot, progress := .idle, sinceRise := 0
                      shiftedOut := (t.port h).link.shiftedOut } }
      ∧ t.Answered h (streamByte bits 1)
          (if checkByte ((frameBytes bits).take 15) = (frameBytes bits).getD 15 0 then .unknown else .badCheck) []

/-- A transaction of 128 edges with a correct check byte whose first byte is the code of a command, and whose
argument bytes are that command's as far as it uses them, runs that command with its tag, once the captured
content has been delivered. The bits are read as bytes, byte 0 first and bit 7 first (R132). The argument bytes
it does not use may be anything. A command that a DETACHED port does not take is answered as its own row answers
it (R134, R137, R139); that a command's own row is the taking of it is read from the table, log 2. -/
def Obligations.GoodFrameTakesItsCommand : Prop :=
  (∀ bits : List Bool, InWireOrder bits)
  ∧ ∀ (h : Port) (bits : List Bool) (c : Command) (cap : Response) (s : State),
    (s.port h).link.progress = .shifting cap [] → bits.length = 128 →
    checkByte ((frameBytes bits).take 15) = (frameBytes bits).getD 15 0 →
    streamByte bits 0 = c.code →
    (∀ k : Fin 13, k.val < c.argBytes.length → streamByte bits (k.val + 2) = c.argBytes.getD k.val 0) →
    ∃ t : State, exec (.transactionEnd h bits) s = .next t
      ∧ exec (c.toInstr h (streamByte bits 1))
          (s.setPort h
            { s.port h with
              flushed := (s.port h).flushed && !cap.flags.flushed
              ejected := (s.port h).ejected && !cap.flags.ejected
              link := { slot := (s.port h).link.slot, progress := .idle, sinceRise := 0
                        shiftedOut := cap.bytes.flatMap byteBits } }) = .next t

/-- The 16 bytes of a response are the code of its status, the tag, twelve data bytes, the port flags and the
check byte (R143). Over a transaction SDO sends the bits of the captured response, byte 0 first and bit 7
first, and zeros after the 128th edge, whatever command the transaction carries (R132); the field that keeps
these bits is the model's own, log 3. -/
def Obligations.ShiftedOutIsCapturedSlot : Prop :=
  (∀ r : Response, r.flags.depth ≤ 4 →
    r.bytes =
      [match r.status with
        | .none => 0x00
        | .ok => 0x01
        | .empty => 0x02
        | .gone => 0x03
        | .nothingHeld => 0x04
        | .mismatch => 0x05
        | .tooLate => 0x06
        | .stackFull => 0x07
        | .extendLimit => 0x08
        | .noLimit => 0x09
        | .notAttached => 0x10
        | .notSupervisor => 0x11
        | .tokenHeld => 0x12
        | .badArg => 0x13
        | .disabled => 0x14
        | .busy => 0x15
        | .notOwner => 0x16
        | .poolFull => 0x17
        | .sourceFull => 0x18
        | .queueEmpty => 0x19
        | .badCheck => 0x20
        | .frameError => 0x21
        | .unknown => 0x22, r.tag]
      ++ r.data.toList
      ++ [BitVec.ofNat 8
            ((if r.flags.attached then 128 else 0) + (if r.flags.token then 64 else 0)
              + (if r.flags.offer then 32 else 0) + (if r.flags.flushed then 16 else 0)
              + (if r.flags.ejected then 8 else 0) + r.flags.depth), r.check])
  ∧ ∀ (h : Port) (sdi rec : List Bool) (cap : Response) (s : State),
    (s.port h).link.progress = .shifting cap rec →
    ∃ t : State, exec (.transactionEnd h sdi) s = .next t
      ∧ (t.port h).link.progress = .idle
      ∧ (t.port h).link.shiftedOut.length = rec.length + sdi.length
      ∧ ∀ k : Nat, k < rec.length + sdi.length →
          (t.port h).link.shiftedOut.getD k true
            = if k < 128 then (cap.bytes.getD (k / 8) 0).getLsbD (7 - k % 8) else false

/-- The check byte starts from FFh. For each bit, the most significant of a byte first, the register moves one
place up, and 07h is combined with it if the bit it loses differs from the incoming one. Running the
computation over bytes followed by their check byte leaves 00h (R133). -/
def Obligations.CheckByteLeavesZeroResidue : Prop :=
  (∀ bytes : List Byte, checkByte bytes =
    (bytes.flatMap fun b => (List.range 8).map fun k => b.getLsbD (7 - k)).foldl
      (fun (r : Byte) bit => (r <<< 1) ^^^ (if r.getLsbD 7 = bit then 0 else 7)) 0xFF)
  ∧ ∀ bytes : List Byte, checkByte (bytes ++ [checkByte bytes]) = 0

/-- Every command is read back from its code and argument bytes, with every argument at every value and the
bytes it does not use at any value, and a code is read as no other command. Each of the 26 codes is its
command's, with its arguments at their byte positions and the first byte of a field its most significant, and
no other code is a command's (R143, R145). -/
def Obligations.CommandDecodeInvertsEncode : Prop :=
  (∀ c : Command, decodeCommand c.code c.args = some c)
  ∧ (∀ (c : Command) (a : Args),
      (∀ k : Fin 13, k.val < c.argBytes.length → look a k = c.argBytes.getD k.val 0) →
      decodeCommand c.code a = some c)
  ∧ (∀ (code : Byte) (a : Args) (c : Command), decodeCommand code a = some c → c.code = code)
  ∧ ∀ (code : Byte) (a : Args) (h : Port) (tag : Byte),
      (decodeCommand code a).map (fun c => c.toInstr h tag) =
        match code.toNat with
        | 0x00 => some (.nop h tag)
        | 0x01 => some (.attach h tag)
        | 0x02 => some (.detach h tag)
        | 0x03 => some (.status h tag)
        | 0x04 => some (.time h tag)
        | 0x05 => some (.lines h tag)
        | 0x10 => some (.peek h tag)
        | 0x11 => some (.claim h tag)
        | 0x12 => some (.claimHandle h tag (look a 0 ++ look a 1))
        | 0x13 => some (.retire h tag (look a 0 ++ look a 1))
        | 0x14 => some (.extend h tag (look a 0 ++ look a 1))
        | 0x15 => some (.threshold h tag (look a 0))
        | 0x16 => some (.post h tag (look a 0) (look a 1 ++ look a 2))
        | 0x20 =>
          some (.timerSetup h tag (look a 0) (look a 1) (look a 2) (look a 3 ++ look a 4) (look a 5) (look a 6))
        | 0x21 => some (.timerStart h tag (look a 0))
        | 0x22 => some (.timerStop h tag (look a 0))
        | 0x23 => some (.timerLoad h tag (look a 0) (look a 1 ++ look a 2))
        | 0x24 => some (.timerRead h tag (look a 0))
        | 0x30 => some (.take h tag)
        | 0x31 => some (.handover h tag (look a 0))
        | 0x32 => some (.eject h tag (look a 0))
        | 0x33 =>
          some (.sourceSet h tag (look a 0)
            #v[look a 1, look a 2, look a 3, look a 4, look a 5, look a 6, look a 7, look a 8, look a 9])
        | 0x34 => some (.sourceRead h tag (look a 0))
        | 0x35 => some (.flush h tag)
        | 0x36 => some (.faultRead h tag)
        | 0x37 => some (.trigger h tag (look a 0))
        | _ => none

/-! ## Session commands -/

/-- NOP is answered OK with no data, and TIME with the 48-bit timebase, at any port, attached or detached;
neither changes anything else (R107, R135). -/
def Obligations.NopAndTimeOnlyReport : Prop :=
  ∀ (h : Port) (tag : Byte) (s : State),
    (∃ t : State, exec (.nop h tag) s = .next t ∧ OnlyAnswers s t h ∧ t.Answered h tag .ok [])
    ∧ ∃ t : State, exec (.time h tag) s = .next t ∧ OnlyAnswers s t h
        ∧ t.Answered h tag .ok (bytesOf48 s.timebase)

/-- LINES reports the recognised level of all 32 lines at any port: bit n of a 32-bit word, most significant
byte first (R18, R147). -/
def Obligations.LinesReportRecognisedLevels : Prop :=
  ∀ (h : Port) (tag : Byte) (s : State), ∃ t : State, exec (.lines h tag) s = .next t
    ∧ OnlyAnswers s t h
    ∧ t.Answered h tag .ok ((List.range 4).map fun k => (t.port h).link.slot.data.toList.getD k 0)
    ∧ ∀ n : LineId,
        ((t.port h).link.slot.data.toList.getD (3 - n.val / 8) 0).getLsbD (n.val % 8) = (s.line n).recognised

/-- STATUS reports the standing of the port and of the part, at any port, and changes nothing; the stacks are
within their four entries (R142, R147). That bits 6, 4 and 3 of byte 0, which R147 does not name, are 0 is the
model's choice (log 13). -/
def Obligations.StatusReportsStanding : Prop :=
  ∀ (h : Port) (tag : Byte) (s : State), s.StackLaw →
    ∃ t : State, exec (.status h tag) s = .next t ∧ OnlyAnswers s t h
      ∧ t.Answered h tag .ok
          [BitVec.ofNat 8 ((if (s.port h).state = .attached then 128 else 0)
              + (if (s.offer h).isSome then 32 else 0) + (s.port h).stack.length),
           BitVec.ofNat 8 (s.port h).threshold.val,
           BitVec.ofNat 8 (((s.port h).stack.head?.map fun e => e.level.val).getD 0),
           (s.token.map fun g => BitVec.ofNat 8 g.val).getD 0xFF#8,
           BitVec.ofNat 8 ((List.finRange 64).countP fun i => (s.ticketAt i).isNone),
           BitVec.ofNat 8 ((List.finRange 49).countP fun src => (s.deferralOf src).isSome),
           BitVec.ofNat 8 s.faults.records.length]

/-- ATTACH makes a DETACHED port ATTACHED with threshold 0 and changes nothing at an ATTACHED one; both
answers report the port, the token holder and the free slots (R140, R147). -/
def Obligations.AttachJoins : Prop :=
  ∀ (h : Port) (tag : Byte) (s : State), ∃ t : State, exec (.attach h tag) s = .next t
    ∧ ((s.port h).state = .attached → OnlyAnswers s t h)
    ∧ ((s.port h).state = .detached →
        t = { s with ports := t.ports }
        ∧ PortsBecome s t h { s.port h with state := .attached, threshold := 0 })
    ∧ t.Answered h tag .ok
        [BitVec.ofNat 8 h.val, (s.token.map fun g => BitVec.ofNat 8 g.val).getD 0xFF#8,
         BitVec.ofNat 8 ((List.finRange 64).countP fun i => (s.ticketAt i).isNone)]

/-- DETACH at an ATTACHED port takes everything from the host: its reservations, its tickets and rounds, its
timers, the token if it held it, and its place in the dispatching of work. The pool is that of the release:
the reservations end, each ACTIVE entry's HELD ticket is returned with no lapse counted or its round left, from
the top of the stack down, the unclaimed rounds are left, oldest first, and the record is an occurrence of
source 48; that a reservation for the host which a grant of the release itself makes ends too is read by the
model from R48 (log 12). What State.returnTicket and State.leaveRound do is in ServiceExpiryReturnsTicket and
RetireShareLeavesRound (R48, R83, R89, R90, R91, R117, R118, R141). -/
def Obligations.DetachLeavesNothingBehind : Prop :=
  ∀ (h : Port) (tag : Byte) (s : State), s.Lawful → (s.port h).state = .attached →
    ∃ t : State, exec (.detach h tag) s = .next t ∧ Departed s t h
      ∧ (t.port h).flushed = (s.port h).flushed ∧ (t.port h).ejected = (s.port h).ejected
      ∧ t.token = (if s.token = some h then none else s.token)
      ∧ t.Answered h tag .ok
          [BitVec.ofNat 8 ((s.port h).stack.countP fun e => e.state == .active),
           BitVec.ofNat 8 ((List.finRange 8).countP fun n =>
             (s.timer n).running && (s.timer n).owner == some h),
           if s.token = some h then 1 else 0]
      ∧ ∀ g : Port, (t.port g).link =
          { (s.port g).link with
            slot := if g = h then (t.port h).link.slot else (s.port g).link.slot }

/-! ## Offers, claims and work -/

/-- A ticket is a candidate for a host exactly when the six conditions of R40 hold. A host's offer is a
candidate, and no candidate stands before it: none has a higher level, and none of its level is older. With no
candidate there is no offer (R28, R40, R41). Bit n of a set of hosts stands for host n (R144). -/
def Obligations.OfferIsFirstCandidate : Prop :=
  (∀ (S : HostSet) (g p : Port), HostSet.has S p = S.toNat.testBit p.val
    ∧ HostSet.has (HostSet.only g) p = decide (p = g))
  ∧ ∀ (h : Port) (s : State), s.OrderLaw →
    (∀ i : SlotId, s.candidate h i = true ↔
      ∃ u ∈ s.ticketAt i,
        (s.port h).state = .attached
        ∧ ((u.waits = true
              ∧ if u.source = faultSource then s.token = some h else HostSet.has u.eligible h = true)
          ∨ (u.inRound = true ∧ HostSet.has u.owed h = true ∧ HostSet.has u.claimed h = false))
        ∧ ((s.port h).threshold < u.level
          ∧ ((s.port h).stack.head?.map fun e => e.level).getD 0 < u.level)
        ∧ (s.port h).stack.length < 4
        ∧ (∀ r ∈ u.reservation, r.host = h)
        ∧ (u.policy = .each → u.waits = true → ∀ j : SlotId, j ≠ i → ∀ v ∈ s.ticketAt j,
            v.source = u.source → v.inRound = false))
    ∧ (∀ i ∈ s.offer h, s.candidate h i = true
      ∧ ∀ j : SlotId, s.candidate h j = true → ∀ u ∈ s.ticketAt i, ∀ v ∈ s.ticketAt j,
          v.level < u.level ∨ (v.level = u.level ∧ s.pool.order.idxOf i ≤ s.pool.order.idxOf j))
    ∧ (s.offer h = none → ∀ j : SlotId, s.candidate h j = false)

/-- PEEK reports the offer, or says why there is none, and changes nothing. The ticket report is spelled out,
and with it ticketReport, in whose terms other statements speak (R49, R144, R147). -/
def Obligations.PeekReportsOffer : Prop :=
  (∀ (hd : Handle) (u : Ticket), ticketReport hd u =
    bytesOf16 (wireWord hd u.source.val)
      ++ [BitVec.ofNat 8 (16 * u.level.val + (if u.policy = .each then 8 else 0) + u.lapses),
          BitVec.ofNat 8 u.count]
      ++ bytesOf16 (u.payload.getD 0).toNat ++ bytesOf48 u.stamp)
  ∧ ∀ (h : Port) (tag : Byte) (s : State), ∃ t : State, exec (.peek h tag) s = .next t ∧ OnlyAnswers s t h
    ∧ ((s.port h).state = .detached → t.Answered h tag .notAttached [])
    ∧ ((s.port h).state = .attached → 4 ≤ (s.port h).stack.length → t.Answered h tag .stackFull [])
    ∧ ((s.port h).state = .attached → (s.port h).stack.length < 4 → s.offer h = none →
        t.Answered h tag .empty [])
    ∧ ∀ i ∈ s.offer h, ∀ u ∈ s.ticketAt i,
        t.Answered h tag .ok
          (bytesOf16 (wireWord (s.handleOf i) u.source.val)
            ++ [BitVec.ofNat 8 (16 * u.level.val + (if u.policy = .each then 8 else 0) + u.lapses),
                BitVec.ofNat 8 u.count]
            ++ bytesOf16 (u.payload.getD 0).toNat ++ bytesOf48 u.stamp)

/-- A claim of a WAITING SINGLE offer, by CLAIM or by CLAIM_HANDLE with its handle, makes the ticket HELD by
the host, pushes an ACTIVE entry with a deadline of one service limit, and reports the ticket
(R50, R51, R54, R55). -/
def Obligations.ClaimSingleHolds : Prop :=
  ∀ (h : Port) (tag : Byte) (word : BitVec 16) (c : Instr) (s : State) (i : SlotId) (u : Ticket),
    s.offer h = some i → s.ticketAt i = some u → u.standing = .waiting → u.policy = .single →
    (c = .claim h tag ∨ (c = .claimHandle h tag word ∧ handleOfWord word = some (s.handleOf i))) →
    ∃ t : State, exec c s = .next t
      ∧ t = { s with pool := { s.pool with slots := t.pool.slots }, ports := t.ports }
      ∧ SlotBecomes s t i { s.slotAt i with ticket := some { u with standing := .held h } }
      ∧ PortsBecome s t h { s.port h with
          stack :=
            { handle := s.handleOf i, source := u.source, level := u.level, state := .active
              expiry := if u.serviceLimit = 0 then none
                        else some (s.timebase + BitVec.ofNat 48 (100 * u.serviceLimit.toNat))
              extensions := 0 } :: (s.port h).stack }
      ∧ t.Answered h tag .ok (ticketReport (s.handleOf i) u)

/-- The first claim of a WAITING EACH offer makes the ticket SPREAD: owed to the eligible hosts that are
attached, claimed by the host, with a collection expiry of one service limit (R52, R54, R55). -/
def Obligations.FirstClaimOpensRound : Prop :=
  ∀ (h : Port) (tag : Byte) (word : BitVec 16) (c : Instr) (s : State) (i : SlotId) (u : Ticket),
    s.offer h = some i → s.ticketAt i = some u → u.standing = .waiting → u.policy = .each →
    (c = .claim h tag ∨ (c = .claimHandle h tag word ∧ handleOfWord word = some (s.handleOf i))) →
    ∃ t : State, exec c s = .next t
      ∧ t = { s with pool := { s.pool with slots := t.pool.slots }, ports := t.ports }
      ∧ (∀ g : Port, HostSet.has (s.attachedOf u.eligible) g
          = (HostSet.has u.eligible g && decide ((s.port g).state = .attached)))
      ∧ SlotBecomes s t i { s.slotAt i with ticket := some { u with
          standing :=
            .spread (s.attachedOf u.eligible) (HostSet.only h)
              (if u.serviceLimit = 0 then none
               else some (s.timebase + BitVec.ofNat 48 (100 * u.serviceLimit.toNat))) } }
      ∧ PortsBecome s t h { s.port h with
          stack :=
            { handle := s.handleOf i, source := u.source, level := u.level, state := .active
              expiry := if u.serviceLimit = 0 then none
                        else some (s.timebase + BitVec.ofNat 48 (100 * u.serviceLimit.toNat))
              extensions := 0 } :: (s.port h).stack }
      ∧ t.Answered h tag .ok (ticketReport (s.handleOf i) u)

/-- A later claim of a SPREAD offer adds the host to the claimed set and leaves the owed set, the count and
the collection expiry as they are (R53, R54, R55). -/
def Obligations.LaterClaimJoinsRound : Prop :=
  ∀ (h : Port) (tag : Byte) (word : BitVec 16) (c : Instr) (s : State) (i : SlotId) (u : Ticket)
    (owed claimed : HostSet) (expiry : Option Time),
    s.offer h = some i → s.ticketAt i = some u → u.standing = .spread owed claimed expiry →
    (c = .claim h tag ∨ (c = .claimHandle h tag word ∧ handleOfWord word = some (s.handleOf i))) →
    ∃ t : State, exec c s = .next t
      ∧ t = { s with pool := { s.pool with slots := t.pool.slots }, ports := t.ports }
      ∧ SlotBecomes s t i { s.slotAt i with ticket := some { u with
          standing :=
            .spread owed (claimed ||| HostSet.only h) expiry } }
      ∧ PortsBecome s t h { s.port h with
          stack :=
            { handle := s.handleOf i, source := u.source, level := u.level, state := .active
              expiry := if u.serviceLimit = 0 then none
                        else some (s.timebase + BitVec.ofNat 48 (100 * u.serviceLimit.toNat))
              extensions := 0 } :: (s.port h).stack }
      ∧ t.Answered h tag .ok (ticketReport (s.handleOf i) u)

/-- A claim that takes nothing changes nothing: STACK_FULL with four entries; otherwise CLAIM is EMPTY with
no offer, and CLAIM_HANDLE is GONE when its word does not name the offer (R50, R55). -/
def Obligations.ClaimThatTakesNothing : Prop :=
  ∀ (h : Port) (tag : Byte) (word : BitVec 16) (s : State), (s.port h).state = .attached →
    (4 ≤ (s.port h).stack.length →
      (∃ t : State, exec (.claim h tag) s = .next t ∧ OnlyAnswers s t h ∧ t.Answered h tag .stackFull [])
      ∧ ∃ t : State, exec (.claimHandle h tag word) s = .next t ∧ OnlyAnswers s t h
          ∧ t.Answered h tag .stackFull [])
    ∧ ((s.port h).stack.length < 4 →
      (s.offer h = none →
        ∃ t : State, exec (.claim h tag) s = .next t ∧ OnlyAnswers s t h ∧ t.Answered h tag .empty [])
      ∧ ((∀ i ∈ s.offer h, handleOfWord word ≠ some (s.handleOf i)) →
        ∃ t : State, exec (.claimHandle h tag word) s = .next t ∧ OnlyAnswers s t h
          ∧ t.Answered h tag .gone []))

/-- RETIRE with an empty stack is NOTHING_HELD; with a word that is not the top entry's handle it is
MISMATCH, reports the top entry and changes nothing; and of a LAPSED top entry it pops the entry, answers
TOO_LATE and changes nothing else (R68, R71, R72). A handle word names a handle by its slot and generation, and
one with any of bits 5 to 0 set names none (R144). That bits 7 and 6 of an entry report's byte 2, which R147 does
not name, are 0 is the model's choice (log 13). -/
def Obligations.RetireWithoutActiveTop : Prop :=
  (∀ (word : BitVec 16) (hd : Handle), handleOfWord word = some hd ↔ word.toNat = wireWord hd 0)
  ∧ ∀ (h : Port) (tag : Byte) (word : BitVec 16) (s : State), (s.port h).state = .attached →
    ∃ t : State, exec (.retire h tag word) s = .next t
      ∧ ((s.port h).stack = [] → OnlyAnswers s t h ∧ t.Answered h tag .nothingHeld [])
      ∧ ∀ (e : Entry) (rest : List Entry), (s.port h).stack = e :: rest →
          (handleOfWord word ≠ some e.handle →
            OnlyAnswers s t h
            ∧ t.Answered h tag .mismatch
                (bytesOf16 (wireWord e.handle e.source.val)
                  ++ [BitVec.ofNat 8 (e.level.val + if e.state = .lapsed then 16 else 0), 0]))
          ∧ (handleOfWord word = some e.handle → e.state = .lapsed →
            t = { s with ports := t.ports }
            ∧ PortsBecome s t h { s.port h with stack := rest }
            ∧ t.Answered h tag .tooLate
                (bytesOf16 (wireWord e.handle e.source.val)
                  ++ [BitVec.ofNat 8 e.level.val,
                      BitVec.ofNat 8 ((rest.head?.map fun x => x.level.val).getD 0)]))

/-- RETIRE of an ACTIVE entry of a HELD ticket frees the ticket, with the grant if a source is deferred, and
then makes the re-arm check of its source. With no source deferred and no cause for a re-arm, the slot is FREE
with its generation advanced, the creation order closes up, and nothing else of the pool changes (R31, R68,
R69, R73, R74). The bits of the report that R147 does not name are the model's choice (log 13). -/
def Obligations.RetireHeldFreesTicket : Prop :=
  ∀ (h g : Port) (tag : Byte) (word : BitVec 16) (s : State) (e : Entry) (rest : List Entry) (u : Ticket),
    (s.port h).state = .attached → (s.port h).stack = e :: rest → handleOfWord word = some e.handle →
    e.state = .active → s.named e.handle = some u → u.standing = .held g →
    ∃ t : State, exec (.retire h tag word) s = .next t
      ∧ t = { s with pool := t.pool, ports := t.ports }
      ∧ t.pool = ((s.freeTicket e.handle.slot).rearmCheck u.source).pool
      ∧ (s.NothingDeferred → (s.NoCause u.source ∨ 1 < s.liveCount u.source) →
        SlotBecomes s t e.handle.slot { generation := e.handle.generation + 1, ticket := none }
        ∧ t.pool.order = s.pool.order.erase e.handle.slot ∧ t.pool.deferrals = s.pool.deferrals)
      ∧ PortsBecome s t h { s.port h with stack := rest }
      ∧ t.Answered h tag .ok
          (bytesOf16 (wireWord e.handle e.source.val)
            ++ [BitVec.ofNat 8 (e.level.val + 32),
                BitVec.ofNat 8 ((rest.head?.map fun x => x.level.val).getD 0)])

/-- A slot that RETIRE frees while sources are deferred is granted, in the same event, to the deferred source
of the highest present level and then the lowest number; here nothing re-arms the retired source. The new
ticket carries the deferred count and stamp and joins the young end of the creation order. The operation
State.freeTicket, in whose terms other statements speak, does the same for every live ticket, and leaves the
slot free when no source is deferred. A new ticket is a snapshot of its source's record, and is reserved for the
preferred host, until the stamp plus the window, if its policy is SINGLE, the window is not 0, the host's port
is ATTACHED and less than the window has passed since the stamp (R10, R31, R33, R34, R46). The bits of the report
that R147 does not name are the model's choice (log 13). -/
def Obligations.RetireGrantsFreedSlot : Prop :=
  (∀ (s : State) (r : SourceRecord) (stamp : Time), s.reservationFor r stamp =
    if r.policy = .single ∧ r.window ≠ 0 then
      r.preferred.bind fun g =>
        if (s.port g).state = .attached ∧ (s.timebase - stamp).toNat < r.window.toNat then
          some { host := g, expiry := stamp + r.window.setWidth 48 }
        else none
    else none)
  ∧ (∀ (s : State) (src : SourceId) (count : Nat) (stamp : Time) (payload : Option (BitVec 16)),
    s.newTicket src count stamp payload =
      { source := src, level := (s.config src).level, policy := (s.config src).policy
        eligible := if src = faultSource then 0 else (s.config src).eligible
        serviceLimit := (s.config src).serviceLimit, retryLimit := (s.config src).retryLimit
        reservation := s.reservationFor (s.config src) stamp
        count := count, payload := payload, stamp := stamp, lapses := 0, standing := .waiting })
  ∧ (∀ (s : State) (i : SlotId), (s.ticketAt i).isSome = true → Frees s (s.freeTicket i) i)
  ∧ ∀ (h g : Port) (tag : Byte) (word : BitVec 16) (s : State) (e : Entry) (rest : List Entry) (u : Ticket)
    (src : SourceId) (d : Deferral),
    (s.port h).state = .attached → (s.port h).stack = e :: rest → handleOfWord word = some e.handle →
    e.state = .active → s.named e.handle = some u → u.standing = .held g → s.NoCause u.source →
    s.FirstDeferred src → s.deferralOf src = some d →
    ∃ t : State, exec (.retire h tag word) s = .next t
      ∧ t = { s with pool := t.pool, ports := t.ports }
      ∧ SlotBecomes s t e.handle.slot
          { generation := e.handle.generation + 1
            ticket := some
              { source := src, level := (s.config src).level, policy := (s.config src).policy
                eligible := if src = faultSource then 0 else (s.config src).eligible
                serviceLimit := (s.config src).serviceLimit, retryLimit := (s.config src).retryLimit
                reservation := s.reservationFor (s.config src) d.stamp
                count := d.count, payload := none, stamp := d.stamp, lapses := 0, standing := .waiting } }
      ∧ t.pool.order = s.pool.order.erase e.handle.slot ++ [e.handle.slot]
      ∧ (∀ other : SourceId, t.deferralOf other = if other = src then none else s.deferralOf other)
      ∧ PortsBecome s t h { s.port h with stack := rest }
      ∧ t.Answered h tag .ok
          (bytesOf16 (wireWord e.handle e.source.val)
            ++ [BitVec.ofNat 8 (e.level.val + 32),
                BitVec.ofNat 8 ((rest.head?.map fun x => x.level.val).getD 0)])

/-- When the last ticket of an enabled level-sensed source, HELD or settling with its last share, is retired
with its line still active, or the last ticket of the enabled source 48 while the fault queue holds records,
and no source is deferred, the source has a fresh ticket with count 1 in the lowest free slot.
A line is active or inactive as the sense HIGH or LOW of its source has it. The non-FREE count of a source
counts its live tickets (R5, R32, R69, R70, R73, R74). The bits of the report that R147 does not name are the
model's choice (log 13). -/
def Obligations.RetireRearmsActiveLine : Prop :=
  (∀ (src : SourceId) (s : State),
    s.liveCount src = (List.finRange 64).countP fun i => (s.ticketAt i).any fun u => u.source == src)
  ∧ (∀ (src : SourceId) (s : State),
    (s.lineActive src = true ↔ s.LineAt src true) ∧ (s.lineInactive src = true ↔ s.LineAt src false))
  ∧ ∀ (h : Port) (tag : Byte) (word : BitVec 16) (s : State) (e : Entry) (rest : List Entry) (u : Ticket),
    (s.port h).state = .attached → (s.port h).stack = e :: rest → handleOfWord word = some e.handle →
    e.state = .active → s.named e.handle = some u → s.NothingDeferred →
    ((u.waits = false ∧ u.inRound = false)
      ∨ (u.inRound = true ∧ ∀ p : Port, p ≠ h → HostSet.has u.owed p = false)) →
    (s.lineActive u.source = true ∨ (u.source = faultSource ∧ s.faults.records ≠ [])) →
    (s.config u.source).level ≠ 0 → s.liveCount u.source = 1 →
    ∃ t : State, exec (.retire h tag word) s = .next t
      ∧ t = { s with pool := t.pool, ports := t.ports }
      ∧ t.pool.deferrals = s.pool.deferrals
      ∧ PortsBecome s t h { s.port h with stack := rest }
      ∧ t.Answered h tag .ok
          (bytesOf16 (wireWord e.handle e.source.val)
            ++ [BitVec.ofNat 8 (e.level.val + 32),
                BitVec.ofNat 8 ((rest.head?.map fun x => x.level.val).getD 0)])
      ∧ ∃ j : SlotId, (∀ k : SlotId, k < j → (t.ticketAt k).isSome = true)
        ∧ (j = e.handle.slot ∨ s.ticketAt j = none)
        ∧ t.pool.order = s.pool.order.erase e.handle.slot ++ [j]
        ∧ ∀ k : SlotId, t.slotAt k =
            { generation := (s.slotAt k).generation + if k = e.handle.slot then 1 else 0
              ticket := if k = j then some (s.newTicket u.source 1 s.timebase none)
                        else if k = e.handle.slot then none else s.ticketAt k }

/-- RETIRE of a share takes the host out of the owed and claimed sets. The ticket stays SPREAD while somebody
is owed, and otherwise settles: it becomes FREE, with the grant if a source is deferred, and then the re-arm
check of its source is made. With no source deferred and no cause for a re-arm, nothing follows the freeing.
The operation State.leaveRound, in whose terms other statements speak, does the same (R68, R70, R73). The bits of
the report that R147 does not name are the model's choice (log 13). -/
def Obligations.RetireShareLeavesRound : Prop :=
  (∀ (s : State) (h : Port) (i : SlotId) (u : Ticket) (owed claimed : HostSet) (expiry : Option Time),
    s.ticketAt i = some u → u.standing = .spread owed claimed expiry →
    LeavesRound s (s.leaveRound h i) h i u owed claimed expiry)
  ∧ ∀ (h : Port) (tag : Byte) (word : BitVec 16) (s : State) (e : Entry) (rest : List Entry) (u : Ticket)
    (owed claimed : HostSet) (expiry : Option Time),
    (s.port h).state = .attached → (s.port h).stack = e :: rest → handleOfWord word = some e.handle →
    e.state = .active → s.named e.handle = some u → u.standing = .spread owed claimed expiry →
    ∃ t : State, exec (.retire h tag word) s = .next t
      ∧ t = { s with pool := t.pool, ports := t.ports }
      ∧ PortsBecome s t h { s.port h with stack := rest }
      ∧ ((∃ p : Port, p ≠ h ∧ HostSet.has owed p = true) →
          SlotBecomes s t e.handle.slot { s.slotAt e.handle.slot with ticket := some { u with
              standing :=
                .spread (owed &&& ~~~ HostSet.only h) (claimed &&& ~~~ HostSet.only h) expiry } }
          ∧ t.pool.order = s.pool.order ∧ t.pool.deferrals = s.pool.deferrals)
      ∧ ((∀ p : Port, p ≠ h → HostSet.has owed p = false) →
          t.pool = ((s.freeTicket e.handle.slot).rearmCheck u.source).pool
          ∧ (s.NothingDeferred → (s.NoCause u.source ∨ 1 < s.liveCount u.source) →
            SlotBecomes s t e.handle.slot { generation := e.handle.generation + 1, ticket := none }
            ∧ t.pool.order = s.pool.order.erase e.handle.slot ∧ t.pool.deferrals = s.pool.deferrals))
      ∧ t.Answered h tag .ok
          (bytesOf16 (wireWord e.handle e.source.val)
            ++ [BitVec.ofNat 8 (e.level.val + if ∃ p : Port, p ≠ h ∧ HostSet.has owed p = true then 0 else 32),
                BitVec.ofNat 8 ((rest.head?.map fun x => x.level.val).getD 0)])

/-- EXTEND is decided by the first case of R75 that applies; accepted, it moves the top entry's deadline to
one service limit from now and counts the extension, and changes nothing else (R75, R76). The bits of the entry
report that R147 does not name are the model's choice (log 13). -/
def Obligations.ExtendRestartsDeadline : Prop :=
  ∀ (h : Port) (tag : Byte) (word : BitVec 16) (s : State),
    ∃ t : State, exec (.extend h tag word) s = .next t
      ∧ ((s.port h).state = .detached → OnlyAnswers s t h ∧ t.Answered h tag .notAttached [])
      ∧ ((s.port h).state = .attached →
        ((s.port h).stack = [] → OnlyAnswers s t h ∧ t.Answered h tag .nothingHeld [])
        ∧ ∀ (e : Entry) (rest : List Entry), (s.port h).stack = e :: rest →
            (handleOfWord word ≠ some e.handle →
              OnlyAnswers s t h
              ∧ t.Answered h tag .mismatch
                  (bytesOf16 (wireWord e.handle e.source.val)
                    ++ [BitVec.ofNat 8 (e.level.val + if e.state = .lapsed then 16 else 0), 0]))
            ∧ (handleOfWord word = some e.handle →
              (e.state = .lapsed → OnlyAnswers s t h ∧ t.Answered h tag .tooLate [])
              ∧ (e.state = .active → e.expiry = none → OnlyAnswers s t h ∧ t.Answered h tag .noLimit [])
              ∧ (e.state = .active → e.expiry.isSome = true → 3 ≤ e.extensions →
                  OnlyAnswers s t h ∧ t.Answered h tag .extendLimit [])
              ∧ ∀ u : Ticket, e.state = .active → e.expiry.isSome = true → e.extensions < 3 →
                  s.named e.handle = some u →
                  t = s.setPort h
                      { s.port h with
                        stack := { e with
                          expiry := some (s.timebase + BitVec.ofNat 48 (100 * u.serviceLimit.toNat))
                          extensions := e.extensions + 1 } :: rest
                        link := { (s.port h).link with slot := (t.port h).link.slot } }
                  ∧ t.Answered h tag .ok
                      [BitVec.ofNat 8 (100 * u.serviceLimit.toNat / 65536),
                       BitVec.ofNat 8 (100 * u.serviceLimit.toNat / 256),
                       BitVec.ofNat 8 (100 * u.serviceLimit.toNat), BitVec.ofNat 8 (e.extensions + 1)]))

/-- THRESHOLD sets the threshold of an attached host, or refuses a value above 15 (R66). -/
def Obligations.ThresholdSetsLevel : Prop :=
  ∀ (h : Port) (tag value : Byte) (s : State), ∃ t : State, exec (.threshold h tag value) s = .next t
    ∧ ((s.port h).state = .detached → OnlyAnswers s t h ∧ t.Answered h tag .notAttached [])
    ∧ ((s.port h).state = .attached → 15 < value.toNat → OnlyAnswers s t h ∧ t.Answered h tag .badArg [])
    ∧ ((s.port h).state = .attached → ∀ v : Fin 16, value.toNat = v.val →
        t = { s with ports := t.ports }
        ∧ PortsBecome s t h { s.port h with threshold := v }
        ∧ t.Answered h tag .ok
            [BitVec.ofNat 8 v.val,
             BitVec.ofNat 8 (((s.port h).stack.head?.map fun e => e.level.val).getD 0)])

/-- POST is decided by the first case of R98 that applies; accepted, it creates in the lowest free slot a
WAITING ticket that carries the payload and a snapshot of the source's record (R98, R99). -/
def Obligations.PostCreatesTicket : Prop :=
  ∀ (h : Port) (tag source : Byte) (payload : BitVec 16) (s : State),
    ∃ t : State, exec (.post h tag source payload) s = .next t
      ∧ ((s.port h).state = .detached → OnlyAnswers s t h ∧ t.Answered h tag .notAttached [])
      ∧ ((s.port h).state = .attached →
        ((source.toNat < 40 ∨ 47 < source.toNat) → OnlyAnswers s t h ∧ t.Answered h tag .badArg [])
        ∧ ∀ src : SourceId, source.toNat = src.val → 40 ≤ src.val → src.val ≤ 47 →
            ((s.config src).level = 0 → OnlyAnswers s t h ∧ t.Answered h tag .disabled [])
            ∧ ((s.config src).level ≠ 0 → 4 ≤ s.liveCount src →
                OnlyAnswers s t h
                ∧ t.Answered h tag .sourceFull
                    [0xFF, 0xFF, BitVec.ofNat 8 (s.liveCount src), BitVec.ofNat 8 s.freeSlots])
            ∧ ((s.config src).level ≠ 0 → s.liveCount src < 4 → (∀ i : SlotId, (s.ticketAt i).isSome = true) →
                OnlyAnswers s t h
                ∧ t.Answered h tag .poolFull [0xFF, 0xFF, BitVec.ofNat 8 (s.liveCount src), 0])
            ∧ ((s.config src).level ≠ 0 → s.liveCount src < 4 → ∀ i : SlotId, s.ticketAt i = none →
                (∀ k : SlotId, k < i → (s.ticketAt k).isSome = true) →
                t = { s with pool := t.pool, ports := t.ports }
                ∧ SlotBecomes s t i { s.slotAt i with
                    ticket := some
                      { source := src, level := (s.config src).level, policy := (s.config src).policy
                        eligible := (s.config src).eligible, serviceLimit := (s.config src).serviceLimit
                        retryLimit := (s.config src).retryLimit
                        reservation :=
                          if (s.config src).policy = .single ∧ (s.config src).window ≠ 0 then
                            (s.config src).preferred.bind fun g =>
                              if (s.port g).state = .attached then
                                some { host := g, expiry := s.timebase + (s.config src).window.setWidth 48 }
                              else none
                          else none
                        count := 1, payload := some payload, stamp := s.timebase, lapses := 0
                        standing := .waiting } }
                ∧ t.pool.order = s.pool.order ++ [i] ∧ t.pool.deferrals = s.pool.deferrals
                ∧ PortsBecome s t h (s.port h)
                ∧ t.Answered h tag .ok
                    (bytesOf16 (wireWord (s.handleOf i) 0)
                      ++ [BitVec.ofNat 8 (s.liveCount src + 1), BitVec.ofNat 8 (s.freeSlots - 1)])))

/-! ## Timer commands -/

/-- TIMER_SETUP is decided by the first case of R112 that applies, and its response carries the record as it
then stands; refused, it changes nothing. The mode and the prescale are those of their codes (R112, R144). -/
def Obligations.TimerSetupConfigures : Prop :=
  ∀ (h : Port) (tag timer mode prescale : Byte) (reload : BitVec 16) (gate chain : Byte) (s : State),
    ∃ t : State, exec (.timerSetup h tag timer mode prescale reload gate chain) s = .next t
      ∧ ((s.port h).state = .detached → OnlyAnswers s t h ∧ t.Answered h tag .notAttached [])
      ∧ ((s.port h).state = .attached →
        (7 < timer.toNat → OnlyAnswers s t h ∧ t.Answered h tag .badArg [])
        ∧ ∀ n : TimerId, timer.toNat = n.val →
            ((s.timer n).running = true →
              OnlyAnswers s t h ∧ t.Answered h tag .busy (timerReport n (s.timer n)))
            ∧ ((s.timer n).running = false →
              (if 3 < mode.toNat ∨ 3 < prescale.toNat ∨ reload = 0 ∨ (gate ≠ 0xFF ∧ 31 < gate.toNat)
                  ∨ 7 < chain.toNat ∨ (gate ≠ 0xFF ∧ (mode = 0 ∨ mode = 3)) ∨ (mode = 3 ∧ chain = timer) then
                OnlyAnswers s t h ∧ t.Answered h tag .badArg (timerReport n (s.timer n))
              else
                t = { s with
                      timers := place s.timers n (t.timer n)
                      ports := place s.ports h { s.port h with
                          link :=
                            { (s.port h).link with slot := (t.port h).link.slot } } }
                ∧ (t.timer n).mode = (match mode.toNat with
                    | 0 => .off
                    | 1 => .periodic
                    | 2 => .oneshot
                    | _ => .chained)
                ∧ (t.timer n).prescale = (match prescale.toNat with
                    | 0 => .by1
                    | 1 => .by16
                    | 2 => .by256
                    | _ => .by4096)
                ∧ (t.timer n).reload = reload
                ∧ (t.timer n).gate.map Fin.val = (if gate = 0xFF then none else some gate.toNat)
                ∧ (t.timer n).chain.val = (if mode = 3 then chain.toNat else 0)
                ∧ (t.timer n).count = (s.timer n).count ∧ (t.timer n).running = false
                ∧ (t.timer n).owner = (s.timer n).owner
                ∧ t.Answered h tag .ok (timerReport n (t.timer n)))))

/-- TIMER_START starts a timer from its reload with the issuer as owner, or restarts one the issuer owns;
it is refused for mode OFF and for another host's running timer (R113). -/
def Obligations.TimerStartRuns : Prop :=
  ∀ (h : Port) (tag timer : Byte) (s : State),
    ∃ t : State, exec (.timerStart h tag timer) s = .next t
      ∧ ((s.port h).state = .detached → OnlyAnswers s t h ∧ t.Answered h tag .notAttached [])
      ∧ ((s.port h).state = .attached →
        (7 < timer.toNat → OnlyAnswers s t h ∧ t.Answered h tag .badArg [])
        ∧ ∀ n : TimerId, timer.toNat = n.val →
            ((s.timer n).mode = .off →
              OnlyAnswers s t h ∧ t.Answered h tag .badArg (timerReport n (s.timer n)))
            ∧ ((s.timer n).mode ≠ .off → (s.timer n).running = true → (s.timer n).owner ≠ some h →
              OnlyAnswers s t h ∧ t.Answered h tag .notOwner (timerReport n (s.timer n)))
            ∧ ((s.timer n).mode ≠ .off → ((s.timer n).running = false ∨ (s.timer n).owner = some h) →
              t = { s with
                    timers := place s.timers n
                      { s.timer n with count := (s.timer n).reload, running := true, owner := some h, stepDue := false }
                    ports := place s.ports h
                      { s.port h with link := { (s.port h).link with slot := (t.port h).link.slot } } }
              ∧ t.Answered h tag .ok (timerReport n (t.timer n))))

/-- TIMER_STOP stops a running timer for its owner or the token holder and keeps the count; a stopped timer
stays as it is, and another host is refused (R114). -/
def Obligations.TimerStopKeepsCount : Prop :=
  ∀ (h : Port) (tag timer : Byte) (s : State),
    ∃ t : State, exec (.timerStop h tag timer) s = .next t
      ∧ ((s.port h).state = .detached → OnlyAnswers s t h ∧ t.Answered h tag .notAttached [])
      ∧ ((s.port h).state = .attached →
        (7 < timer.toNat → OnlyAnswers s t h ∧ t.Answered h tag .badArg [])
        ∧ ∀ n : TimerId, timer.toNat = n.val →
            ((s.timer n).running = false →
              OnlyAnswers s t h ∧ t.Answered h tag .ok (timerReport n (s.timer n)))
            ∧ ((s.timer n).running = true → (s.timer n).owner ≠ some h → s.token ≠ some h →
              OnlyAnswers s t h ∧ t.Answered h tag .notOwner (timerReport n (s.timer n)))
            ∧ ((s.timer n).running = true → ((s.timer n).owner = some h ∨ s.token = some h) →
              t = { s with
                    timers := place s.timers n { s.timer n with running := false, owner := none, stepDue := false }
                    ports := place s.ports h
                      { s.port h with link := { (s.port h).link with slot := (t.port h).link.slot } } }
              ∧ t.Answered h tag .ok (timerReport n (t.timer n))))

/-- TIMER_LOAD sets the reload of a stopped timer, or of a running one for its owner alone, and leaves the
count (R115). -/
def Obligations.TimerLoadSetsReload : Prop :=
  ∀ (h : Port) (tag timer : Byte) (reload : BitVec 16) (s : State),
    ∃ t : State, exec (.timerLoad h tag timer reload) s = .next t
      ∧ ((s.port h).state = .detached → OnlyAnswers s t h ∧ t.Answered h tag .notAttached [])
      ∧ ((s.port h).state = .attached →
        (7 < timer.toNat → OnlyAnswers s t h ∧ t.Answered h tag .badArg [])
        ∧ ∀ n : TimerId, timer.toNat = n.val →
            (reload = 0 → OnlyAnswers s t h ∧ t.Answered h tag .badArg (timerReport n (s.timer n)))
            ∧ (reload ≠ 0 → (s.timer n).running = true → (s.timer n).owner ≠ some h →
              OnlyAnswers s t h ∧ t.Answered h tag .notOwner (timerReport n (s.timer n)))
            ∧ (reload ≠ 0 → ((s.timer n).running = false ∨ (s.timer n).owner = some h) →
              t = { s with
                    timers := place s.timers n { s.timer n with reload := reload }
                    ports := place s.ports h
                      { s.port h with link := { (s.port h).link with slot := (t.port h).link.slot } } }
              ∧ t.Answered h tag .ok (timerReport n (t.timer n))))

/-- TIMER_READ reports the record of a timer, byte by byte as R144 and R147 lay it out, and changes nothing. The
operation timerReport, in whose terms other statements speak, is spelled out (R116, R144, R147). -/
def Obligations.TimerReadReportsRecord : Prop :=
  (∀ (n : TimerId) (x : Timer), timerReport n x =
    [BitVec.ofNat 8 n.val,
     BitVec.ofNat 8
      (64 * (match x.mode with
          | .off => 0
          | .periodic => 1
          | .oneshot => 2
          | .chained => 3)
        + 16 * (match x.prescale with
          | .by1 => 0
          | .by16 => 1
          | .by256 => 2
          | .by4096 => 3)
        + (if x.running then 8 else 0) + ((x.owner.map fun g => 4 + g.val).getD 0)),
     (x.gate.map fun g => BitVec.ofNat 8 g.val).getD 0xFF#8,
     BitVec.ofNat 8 x.chain.val]
      ++ bytesOf16 x.reload.toNat ++ bytesOf16 x.count.toNat)
  ∧ ∀ (h : Port) (tag timer : Byte) (s : State), ∃ t : State, exec (.timerRead h tag timer) s = .next t
    ∧ OnlyAnswers s t h
    ∧ ((s.port h).state = .detached → t.Answered h tag .notAttached [])
    ∧ ((s.port h).state = .attached → 7 < timer.toNat → t.Answered h tag .badArg [])
    ∧ ((s.port h).state = .attached → ∀ n : TimerId, timer.toNat = n.val →
        t.Answered h tag .ok (timerReport n (s.timer n)))

/-! ## Supervision -/

/-- TAKE gives the vacant token to an attached port, and answers TOKEN_HELD with the holder's number
otherwise (R119). -/
def Obligations.TakeGivesVacantToken : Prop :=
  ∀ (h : Port) (tag : Byte) (s : State), ∃ t : State, exec (.take h tag) s = .next t
    ∧ ((s.port h).state = .detached → OnlyAnswers s t h ∧ t.Answered h tag .notAttached [])
    ∧ ((s.port h).state = .attached → ∀ g ∈ s.token,
        OnlyAnswers s t h ∧ t.Answered h tag .tokenHeld [BitVec.ofNat 8 g.val])
    ∧ ((s.port h).state = .attached → s.token = none →
        t = { s with token := some h, ports := t.ports }
        ∧ PortsBecome s t h (s.port h) ∧ t.Answered h tag .ok [BitVec.ofNat 8 h.val])

/-- HANDOVER passes the token from its holder to another attached port and moves nothing else (R120). -/
def Obligations.HandoverPassesToken : Prop :=
  ∀ (h : Port) (tag target : Byte) (s : State), (s.port h).state = .attached → s.token = some h →
    ∃ t : State, exec (.handover h tag target) s = .next t
      ∧ (3 < target.toNat → OnlyAnswers s t h ∧ t.Answered h tag .badArg [])
      ∧ ∀ g : Port, target.toNat = g.val →
          ((g = h ∨ (s.port g).state = .detached) → OnlyAnswers s t h ∧ t.Answered h tag .badArg [])
          ∧ (g ≠ h → (s.port g).state = .attached →
            t = { s with token := some g, ports := t.ports }
            ∧ PortsBecome s t h (s.port h) ∧ t.Answered h tag .ok [target])

/-- EJECT by the supervisor detaches another attached port, leaves it no entry, round, reservation or running
timer, sets its ejected notice, and reports the ACTIVE entries removed and the timers stopped; a target above
3, the issuer itself and a detached port are refused with nothing changed. The pool is that of the target's
release, as for DETACH (R83, R89, R90, R91, R122, R123); that a reservation for the target which a grant of the
release itself makes ends too is read by the model from R48 (log 12). -/
def Obligations.EjectDetachesTarget : Prop :=
  ∀ (h : Port) (tag target : Byte) (s : State), s.Lawful → (s.port h).state = .attached →
    s.token = some h →
    ∃ t : State, exec (.eject h tag target) s = .next t
      ∧ (3 < target.toNat → OnlyAnswers s t h ∧ t.Answered h tag .badArg [])
      ∧ ∀ g : Port, target.toNat = g.val →
          ((g = h ∨ (s.port g).state = .detached) → OnlyAnswers s t h ∧ t.Answered h tag .badArg [])
          ∧ (g ≠ h → (s.port g).state = .attached →
            Departed s t g ∧ (t.port g).ejected = true ∧ (t.port g).flushed = (s.port g).flushed
            ∧ t.token = some h
            ∧ (∀ p : Port, (t.port p).link =
                { (s.port p).link with
                  slot := if p = h then (t.port h).link.slot else (s.port p).link.slot })
            ∧ t.Answered h tag .ok
                [target, BitVec.ofNat 8 ((s.port g).stack.countP fun e => e.state == .active),
                 BitVec.ofNat 8 ((List.finRange 8).countP fun n =>
                   (s.timer n).running && (s.timer n).owner == some g)])

/-- The nine configuration bytes of a source 0 to 47 are refused exactly where R11 and R146 say, and otherwise
give each field of the record its value. Those of source 48 are accepted exactly when c0 is a level and c1 to
c8 are each FFh, and give the level alone (R11, R16, R146). -/
def Obligations.ConfigurationBytesDecode : Prop :=
  (∀ (s : State) (c : Vector Byte 9),
    ((s.recordGiven faultSource c).isSome = true ↔
      (look c 0).toNat < 16 ∧ ∀ k : Fin 9, k ≠ 0 → look c k = 0xFF)
    ∧ ∀ r ∈ s.recordGiven faultSource c, ∀ l : Fin 16, l.val = (look c 0).toNat →
        r = { s.config faultSource with level := l })
  ∧ (∀ (s : State) (src : SourceId) (c : Vector Byte 9), src ≠ faultSource →
    s.recordGiven src c = recordOfBytes src c)
  ∧ ∀ (src : SourceId) (c : Vector Byte 9), src ≠ faultSource →
    ((recordOfBytes src c).isSome = true ↔
      (look c 0).toNat < 16 ∧ (look c 1).toNat < 2 ∧ (look c 2).toNat < 16
        ∧ (look c 3 = 0xFF ∨ ((look c 3).toNat < 4 ∧ look c 1 = 0 ∧ (look c 2).toNat.testBit (look c 3).toNat))
        ∧ (look c 7).toNat / 8 % 2 = 0 ∧ (look c 7).toNat % 8 ≠ 0
        ∧ (if src.val < 32 then (look c 8).toNat / 16 ≤ 4 else look c 8 = 0xF0))
    ∧ ∀ r ∈ recordOfBytes src c,
        r.level.val = (look c 0).toNat ∧ r.policy = (if look c 1 = 0 then .single else .each)
          ∧ r.eligible.toNat = (look c 2).toNat
          ∧ r.preferred.map Fin.val = (if look c 3 = 0xFF then none else some (look c 3).toNat)
          ∧ r.window.toNat = 256 * (look c 4).toNat + (look c 5).toNat
          ∧ r.serviceLimit.toNat = 16 * (look c 6).toNat + (look c 7).toNat / 16
          ∧ r.retryLimit.val = (look c 7).toNat % 8
          ∧ (if src.val < 32 then
               r.sense = (match (look c 8).toNat / 16 with
                 | 0 => .rising
                 | 1 => .falling
                 | 2 => .both
                 | 3 => .high
                 | _ => .low)
               ∧ r.filter.val = (look c 8).toNat % 16
             else r.sense = .rising ∧ r.filter = 0)

/-- SOURCE_SET by the supervisor is refused with BAD_ARG or replaces the whole record of its source and no
other; no ticket in service and no line, timer, port or fault record is touched (R11, R15). -/
def Obligations.SourceSetReplacesRecord : Prop :=
  ∀ (h : Port) (tag source : Byte) (config : Vector Byte 9) (s : State),
    (s.port h).state = .attached → s.token = some h →
    ∃ t : State, exec (.sourceSet h tag source config) s = .next t
      ∧ (48 < source.toNat → OnlyAnswers s t h ∧ t.Answered h tag .badArg [])
      ∧ ∀ src : SourceId, source.toNat = src.val →
          (s.recordGiven src config = none → OnlyAnswers s t h ∧ t.Answered h tag .badArg [])
          ∧ ∀ r ∈ s.recordGiven src config,
              t.config src = r ∧ (∀ other : SourceId, other ≠ src → t.config other = s.config other)
              ∧ (t.timebase = s.timebase ∧ t.lines = s.lines ∧ t.timers = s.timers ∧ t.token = s.token
                  ∧ t.faults = s.faults ∧ t.pending = s.pending)
              ∧ PortsBecome s t h (s.port h) ∧ t.Answered h tag .ok []
              ∧ ∀ i : SlotId, ∀ u ∈ s.ticketAt i, u.waits = false → t.slotAt i = s.slotAt i

/-- A SOURCE_SET to level 0 frees the WAITING tickets of its source, oldest first, and clears its deferral; one
that leaves an enabled level-sensed source's line inactive withdraws its pending work. Either leaves it no
WAITING ticket and no deferral. One that makes a source held active, and one that raises source 48 from level
0 while the fault queue holds records, gives the source one occurrence: with no pending work and a free slot,
one new ticket with the new record as its snapshot. Any other SOURCE_SET, of any source to a level above 0,
leaves the pool as it is: no occurrence, and every ticket keeps its snapshot (R12, R13, R14, R15, R16). The
WAITING ticket of a source is the oldest of its live tickets that are WAITING (R19, R32). -/
def Obligations.SourceSetSettlesPendingWork : Prop :=
  (∀ (src : SourceId) (s : State),
    (∀ i : SlotId, s.waitsFor src i = (s.ticketAt i).any fun u => u.source == src && u.standing == .waiting)
    ∧ s.waitingTicket src = (s.pool.order.filter (s.waitsFor src)).head?)
  ∧ ∀ (h : Port) (tag source : Byte) (config : Vector Byte 9) (s : State) (src : SourceId) (r : SourceRecord),
    s.Lawful → (s.port h).state = .attached → s.token = some h → source.toNat = src.val →
    s.recordGiven src config = some r →
    ∃ t : State, exec (.sourceSet h tag source config) s = .next t
      ∧ ((r.level = 0 ∨ t.lineInactive src = true) →
          t.deferralOf src = none
          ∧ ∀ i : SlotId, ∀ u ∈ t.ticketAt i, u.source = src → u.waits = false)
      ∧ (r.level = 0 →
          t.pool =
            (((s.pool.order.filter (s.waitsFor src)).foldl State.freeTicket
                { s with sources := t.sources, faultLevel := t.faultLevel }).setDeferral src none).pool)
      ∧ (r.level ≠ 0 → t.lineInactive src = true →
          t.pool = (State.withdraw { s with sources := t.sources, faultLevel := t.faultLevel } src).pool)
      ∧ (r.level ≠ 0 → t.lineInactive src = false →
          (t.lineActive src = true → (s.config src).level ≠ 0 ∧ s.lineActive src = true) →
          (src = faultSource → (s.config src).level ≠ 0 ∨ s.faults.records = []) →
          t.pool = s.pool)
      ∧ (r.level ≠ 0 →
          ((t.lineActive src = true ∧ ((s.config src).level = 0 ∨ s.lineActive src = false))
            ∨ (src = faultSource ∧ (s.config src).level = 0 ∧ s.faults.records ≠ [])) →
          t.pool = (State.occurrence { s with sources := t.sources, faultLevel := t.faultLevel } src).pool)
      ∧ (r.level ≠ 0 →
          ((t.lineActive src = true ∧ ((s.config src).level = 0 ∨ s.lineActive src = false))
            ∨ (src = faultSource ∧ (s.config src).level = 0 ∧ s.faults.records ≠ [])) →
          (∀ i : SlotId, ∀ u ∈ s.ticketAt i, u.source = src → u.waits = false) →
          s.deferralOf src = none → ∀ i : SlotId, s.ticketAt i = none →
          (∀ k : SlotId, k < i → (s.ticketAt k).isSome = true) →
          SlotBecomes s t i { s.slotAt i with
              ticket := some
                { source := src, level := r.level, policy := r.policy
                  eligible := if src = faultSource then 0 else r.eligible
                  serviceLimit := r.serviceLimit, retryLimit := r.retryLimit
                  reservation := s.reservationFor r s.timebase
                  count := 1, payload := none, stamp := s.timebase, lapses := 0, standing := .waiting } }
          ∧ t.pool.order = s.pool.order ++ [i] ∧ t.pool.deferrals = s.pool.deferrals)

/-- SOURCE_READ reports the configuration, the recognised level, the non-FREE count, the deferred count and
the oldest WAITING ticket of a source, and changes nothing (R19, R146). -/
def Obligations.SourceReadReportsRecord : Prop :=
  ∀ (h : Port) (tag source : Byte) (s : State),
    ∃ t : State, exec (.sourceRead h tag source) s = .next t ∧ OnlyAnswers s t h
      ∧ ((s.port h).state = .detached → t.Answered h tag .notAttached [])
      ∧ ((s.port h).state = .attached → 48 < source.toNat → t.Answered h tag .badArg [])
      ∧ s.config faultSource =
          { level := s.faultLevel, policy := .single
            eligible := (s.token.map HostSet.only).getD 0, preferred := none, window := 0
            serviceLimit := 0, retryLimit := 7, sense := .rising, filter := 0 }
      ∧ ∀ src : SourceId, (s.port h).state = .attached → source.toNat = src.val →
          t.Answered h tag .ok
            ([BitVec.ofNat 8 ((s.config src).level.val
                + (if ∃ n : LineId, lineSource n = src ∧ (s.line n).recognised = true then 128 else 0)),
              BitVec.ofNat 8 (2 * s.liveCount src + if (s.config src).policy = .each then 1 else 0),
              BitVec.ofNat 8 (s.config src).eligible.toNat,
              ((s.config src).preferred.map fun g => BitVec.ofNat 8 g.val).getD 0xFF#8]
              ++ bytesOf16 (s.config src).window.toNat
              ++ bytesOf16 (16 * (s.config src).serviceLimit.toNat + (s.config src).retryLimit.val)
              ++ [BitVec.ofNat 8
                    (16 * (match (s.config src).sense with
                        | .rising => 0
                        | .falling => 1
                        | .both => 2
                        | .high => 3
                        | .low => 4) + (s.config src).filter.val),
                  BitVec.ofNat 8 (((s.deferralOf src).map Deferral.count).getD 0)]
              ++ ((s.pool.order.filter (s.waitsFor src)).head?.map fun i =>
                    bytesOf16 (wireWord (s.handleOf i) 0)).getD [0xFF, 0xFF])

/-- FLUSH frees every live ticket with its generation advanced, clears every deferral, empties every stack
and sets the flushed notice of every attached port. The level-sensed sources whose lines are active, in
ascending order, and then source 48 if the queue holds records, have new tickets in slots 0 upward
(R38, R124, R125). -/
def Obligations.FlushFreesAndRearms : Prop :=
  ∀ (h : Port) (tag : Byte) (s : State) (again : List SourceId),
    (s.port h).state = .attached → s.token = some h →
    again = ((List.finRange 49).filter fun src =>
      decide ((s.config src).level ≠ 0)
        && (s.lineActive src || (src == faultSource && !s.faults.records.isEmpty))) →
    ∃ t : State, exec (.flush h tag) s = .next t
      ∧ t = { s with pool := t.pool, ports := t.ports }
      ∧ (∀ src : SourceId, t.deferralOf src = none)
      ∧ t.pool.order.map Fin.val = List.range again.length
      ∧ (∀ i : SlotId, t.slotAt i =
          { generation := (s.slotAt i).generation + if (s.ticketAt i).isSome then 1 else 0
            ticket := again[i.val]?.map fun src => s.newTicket src 1 s.timebase none })
      ∧ (∀ g : Port, t.port g =
          { s.port g with
            stack := [], flushed := (s.port g).flushed || decide ((s.port g).state = .attached)
            attn := (t.offer g).isSome
            link := { (s.port g).link with
                      slot := if g = h then (t.port h).link.slot else (s.port g).link.slot } })
      ∧ t.Answered h tag .ok
          [BitVec.ofNat 8 ((List.finRange 64).countP fun i => (s.ticketAt i).isSome),
           BitVec.ofNat 8 ((List.finRange 49).countP fun src => (s.deferralOf src).isSome)]

/-- FAULT_READ by the supervisor removes the oldest record and reports it, byte by byte as R147 lays it out,
or says QUEUE_EMPTY, and reports and clears the overflow indicator either way. No stack, threshold, notice or
serial side of a port changes but the response. When the queue becomes empty the pending work of source 48 is
withdrawn: its WAITING ticket is freed, or its deferral is cleared (R128, R129, R147). That bits 3 and 2 of byte
0, which R147 does not name, are 0 is the model's choice (log 13). -/
def Obligations.FaultReadRemovesOldest : Prop :=
  ∀ (h : Port) (tag : Byte) (s : State), s.FaultLaw → (s.port h).state = .attached → s.token = some h →
    ∃ t : State, exec (.faultRead h tag) s = .next t
      ∧ t = { s with pool := t.pool, ports := t.ports, faults := t.faults }
      ∧ t.faults = { records := s.faults.records.tail, overflow := false }
      ∧ (s.faults.records.length = 1 → PortsBecome s t h (s.port h))
      ∧ (s.faults.records.length ≠ 1 →
          t.ports = place s.ports h
            { s.port h with link := { (s.port h).link with slot := (t.port h).link.slot } })
      ∧ (s.faults.records = [] →
          t.pool = s.pool
          ∧ t.Answered h tag .queueEmpty [if s.faults.overflow then 128 else 0, 0xFF, 0xFF, 0xFF])
      ∧ ∀ (r : FaultRecord) (rest : List FaultRecord), s.faults.records = r :: rest →
          t.Answered h tag .ok
            (match r with
              | .abandoned src hd lapses stamp =>
                BitVec.ofNat 8 ((if s.faults.overflow then 128 else 0) + 16 * rest.length + 1)
                  :: (bytesOf16 (wireWord hd src.val) ++ [0xFF, BitVec.ofNat 8 lapses] ++ bytesOf48 stamp)
              | .shareLapsed src hd host stamp =>
                BitVec.ofNat 8 ((if s.faults.overflow then 128 else 0) + 16 * rest.length + 2)
                  :: (bytesOf16 (wireWord hd src.val) ++ [BitVec.ofNat 8 host.val, 0] ++ bytesOf48 stamp)
              | .hostReleased host entries stamp =>
                BitVec.ofNat 8 ((if s.faults.overflow then 128 else 0) + 16 * rest.length + 3)
                  :: ([0xFF, 0xFF, BitVec.ofNat 8 host.val, BitVec.ofNat 8 entries] ++ bytesOf48 stamp))
          ∧ (rest ≠ [] → t.pool = s.pool)
          ∧ (rest = [] → t.pool = (s.withdraw faultSource).pool)
          ∧ (rest = [] → ∀ i : SlotId, s.waitingTicket faultSource = some i → s.NothingDeferred →
              SlotBecomes s t i { generation := (s.slotAt i).generation + 1, ticket := none }
              ∧ t.pool.order = s.pool.order.erase i ∧ t.pool.deferrals = s.pool.deferrals)
          ∧ (rest = [] → s.waitingTicket faultSource = none →
              t.pool = { s.pool with deferrals := place s.pool.deferrals faultSource none })

/-- TRIGGER makes one occurrence of an edge-sensed line source or a timer source, taken by the first case of
R9 that applies, which the response reports; any other source is BAD_ARG and a disabled one DISABLED. It is
refused at a detached port and at a port that does not hold the token. The operation State.occurrence, in
whose terms other statements speak, is taken by the first case of R9 too, for every source but the posted ones
(R9, R17). -/
def Obligations.TriggerMakesOccurrence : Prop :=
  (∀ (src : SourceId) (s : State), SourceId.posted src = false → Occurs s (s.occurrence src) src)
  ∧ ∀ (h : Port) (tag source : Byte) (s : State), ∃ t : State, exec (.trigger h tag source) s = .next t
    ∧ ((s.port h).state = .detached → OnlyAnswers s t h ∧ t.Answered h tag .notAttached [])
    ∧ ((s.port h).state = .attached → s.token ≠ some h →
        OnlyAnswers s t h ∧ t.Answered h tag .notSupervisor [])
    ∧ ((s.port h).state = .attached → s.token = some h →
      (40 ≤ source.toNat → OnlyAnswers s t h ∧ t.Answered h tag .badArg [])
      ∧ ∀ src : SourceId, source.toNat = src.val → src.val < 40 →
          ((s.config src).sense.activeLevel.isSome = true → src.val < 32 →
            OnlyAnswers s t h ∧ t.Answered h tag .badArg [])
          ∧ (((s.config src).sense.activeLevel = none ∨ 32 ≤ src.val) →
            ((s.config src).level = 0 → OnlyAnswers s t h ∧ t.Answered h tag .disabled [])
            ∧ ((s.config src).level ≠ 0 →
              t = { s with pool := t.pool, ports := t.ports } ∧ PortsBecome s t h (s.port h)
              ∧ (∀ i ∈ s.waitingTicket src, ∀ u ∈ s.ticketAt i,
                  SlotBecomes s t i { s.slotAt i with ticket := some { u with count := min (u.count + 1) 255 } }
                  ∧ t.pool.order = s.pool.order ∧ t.pool.deferrals = s.pool.deferrals
                  ∧ t.Answered h tag .ok
                      (3 :: (bytesOf16 (wireWord (s.handleOf i) 0) ++ [BitVec.ofNat 8 (min (u.count + 1) 255)])))
              ∧ (s.waitingTicket src = none →
                (∀ d ∈ s.deferralOf src,
                  t.pool = { s.pool with
                      deferrals := place s.pool.deferrals src (some { d with count := min (d.count + 1) 255 }) }
                  ∧ t.Answered h tag .ok [4, 0xFF, 0xFF, BitVec.ofNat 8 (min (d.count + 1) 255)])
                ∧ (s.deferralOf src = none →
                  (∀ i : SlotId, s.ticketAt i = none → (∀ k : SlotId, k < i → (s.ticketAt k).isSome = true) →
                    SlotBecomes s t i
                      { s.slotAt i with ticket := some (s.newTicket src 1 s.timebase none) }
                    ∧ t.pool.order = s.pool.order ++ [i] ∧ t.pool.deferrals = s.pool.deferrals
                    ∧ t.Answered h tag .ok (5 :: (bytesOf16 (wireWord (s.handleOf i) 0) ++ [1])))
                  ∧ ((∀ i : SlotId, (s.ticketAt i).isSome = true) →
                    t.pool = { s.pool with
                        deferrals := place s.pool.deferrals src (some { count := 1, stamp := s.timebase }) }
                    ∧ t.Answered h tag .ok [6, 0xFF, 0xFF, 1]))))))

/-- At a DETACHED port every command but NOP, ATTACH, STATUS, TIME and LINES is answered NOT_ATTACHED. At an
attached port that does not hold the token the six protected commands are answered NOT_SUPERVISOR. Neither
changes anything else (R121, R139). -/
def Obligations.RefusalsComeFirst : Prop :=
  ∀ (c : Command) (h : Port) (tag : Byte) (s : State),
    ((s.port h).state = .detached → c.code.toNat ∉ [0x00, 0x01, 0x03, 0x04, 0x05] →
      ∃ t : State, exec (c.toInstr h tag) s = .next t ∧ OnlyAnswers s t h ∧ t.Answered h tag .notAttached [])
    ∧ ((s.port h).state = .attached → s.token ≠ some h →
      c.code.toNat ∈ [0x31, 0x32, 0x33, 0x35, 0x36, 0x37] →
      ∃ t : State, exec (c.toInstr h tag) s = .next t ∧ OnlyAnswers s t h
        ∧ t.Answered h tag .notSupervisor [])

/-! ## Events of the part -/

/-- A timebase advance increases the timebase by one modulo 2^48. It leaves the source table, the token,
the thresholds, the notices and the response slots as they are, and of every stack entry it may change the
state alone (R80, R105). -/
def Obligations.AdvanceMovesTimebase : Prop :=
  ∀ (pins : BitVec 32) (order held : List AdvanceEvent) (s : State),
    ∃ t : State, exec (.timebaseAdvance pins order held) s = .next t
      ∧ t.timebase.toNat = (s.timebase.toNat + 1) % 2 ^ 48
      ∧ t.sources = s.sources ∧ t.faultLevel = s.faultLevel ∧ t.token = s.token ∧ t.pending = s.pending
      ∧ ∀ g : Port, t.port g =
          { s.port g with
            stack := (t.port g).stack, attn := (t.offer g).isSome
            link := { (s.port g).link with sinceRise := min 2 ((s.port g).link.sinceRise + 1) } }
        ∧ (t.port g).stack.map (fun e => { e with state := .active })
            = (s.port g).stack.map fun e => { e with state := .active }

/-- At an advance every line is sampled once, whatever the order of the advance's events: the first sample
after reset sets the level; a sample of the recognised level clears the run; an opposite one lengthens the
run, and makes a recognised change when the run exceeds the filter. A recognised change is one occurrence of
the line's source, the withdrawal of its pending work, or neither, by the table of R5; said of the sampling of
every line, and of an advance whose other events leave the pool alone (R4, R5, R6, R7). -/
def Obligations.AdvanceSamplesLines : Prop :=
  (∀ (src : SourceId) (s : State), Withdraws s (s.withdraw src) src)
  ∧ (∀ (n : LineId) (high : Bool) (s : State),
      ((s.sampleLine n high).pool = if s.Changes n high then (s.afterChange n high).pool else s.pool)
      ∧ s.sampleLine n high =
          { s with pool := (s.sampleLine n high).pool, lines := (s.sampleLine n high).lines })
  ∧ (∀ (pins : BitVec 32) (order held : List AdvanceEvent) (s : State) (n : LineId),
      s.QuietAt s.timebase → s.QuietAt (s.timebase + 1) →
      (∀ m : LineId, m ≠ n → ¬ s.Changes m (pins.getLsbD m.val)) →
      ∃ t : State, exec (.timebaseAdvance pins order held) s = .next t
        ∧ t.pool =
            if s.Changes n (pins.getLsbD n.val) then
              (State.afterChange { s with timebase := s.timebase + 1 } n (pins.getLsbD n.val)).pool
            else s.pool)
  ∧ ∀ (pins : BitVec 32) (order held : List AdvanceEvent) (s : State) (n : LineId),
    ∃ t : State, exec (.timebaseAdvance pins order held) s = .next t
      ∧ t.line n =
          if (s.line n).sampled = false then
            { recognised := pins.getLsbD n.val, run := 0, sampled := true, sampleDue := false }
          else if pins.getLsbD n.val = (s.line n).recognised then
            { s.line n with run := 0, sampleDue := false }
          else if (s.config (lineSource n)).filter.val < (s.line n).run + 1 then
            { s.line n with recognised := pins.getLsbD n.val, run := 0, sampleDue := false }
          else { s.line n with run := (s.line n).run + 1, sampleDue := false }

/-- A running timer in PERIODIC or ONESHOT mode, with no step left over, steps at an advance onto a multiple
of its prescale, 1, 16, 256 or 4096 µs, and at no other, and there only if it has no gate line or the gate is
recognised high when the step is taken: the level after the advance's sample where the line goes first, and
before it where the timer does. The step to 0 reloads a PERIODIC timer and stops a ONESHOT one, unless the
advance holds it for a row of its own. With no step of any timer left over, an advance leaves a stopped timer,
one in mode OFF, and a CHAINED one whose chain timer does not expire as they are (R108, R109, R110, R111; the
order is an operand, log 6, and held expiries are the model's choice, log 7). -/
def Obligations.AdvanceStepsTimers : Prop :=
  (∀ p : Prescale, p.steps = match p with
    | .by1 => 1
    | .by16 => 16
    | .by256 => 256
    | .by4096 => 4096)
  ∧ (∀ (pins : BitVec 32) (order held : List AdvanceEvent) (s : State) (n : TimerId),
    (∀ m : TimerId, (s.timer m).stepDue = false) →
    ((s.timer n).running = false ∨ (s.timer n).mode = .off
      ∨ ((s.timer n).mode = .chained ∧ ∀ m : TimerId, s.expiresWith m (s.timer n).chain = true →
          s.Reaches (s.timebase + 1) (.timer m) → (s.timer m).count ≠ 1)) →
    ∃ t : State, exec (.timebaseAdvance pins order held) s = .next t ∧ t.timer n = s.timer n)
  ∧ ∀ (pins : BitVec 32) (order held : List AdvanceEvent) (s : State) (n : TimerId) (isOpen : Bool),
    (s.timer n).running = true → ((s.timer n).mode = .periodic ∨ (s.timer n).mode = .oneshot) →
    (s.timer n).stepDue = false →
    ∃ t : State, exec (.timebaseAdvance pins order held) s = .next t
      ∧ (((s.timer n).gate = none → isOpen = true) →
          (∀ g ∈ (s.timer n).gate,
            (order = [] ∧ isOpen = (t.line g).recognised)
              ∨ (order.head? = some (.timer n) ∧ isOpen = (s.line g).recognised)
              ∨ (isOpen = (s.line g).recognised ∧ isOpen = (t.line g).recognised)) →
          t.timer n =
            if (s.timebase.toNat + 1) % 2 ^ 48 % (s.timer n).prescale.steps ≠ 0 then s.timer n
            else if (s.timer n).count = 1 ∧ .timer n ∈ held then { s.timer n with stepDue := true }
            else if isOpen = false then s.timer n
            else if (s.timer n).count ≠ 1 then { s.timer n with count := (s.timer n).count - 1 }
            else if (s.timer n).mode = .periodic then { s.timer n with count := (s.timer n).reload }
            else { s.timer n with count := 0, running := false, owner := none })

/-- After an advance that holds nothing, no line, timer, service expiry, collection expiry or affinity expiry
of the present instant is left to be taken, whatever the order. An expiry taken inside its advance does what
the same advance with that expiry held, and then the expiry's own row, do: said of an expiry taken last,
whatever else the advance brings, and, in any order, of one that is the only expiry or step of its advance, no
line changing (R79, R106). That an advance takes expiries, may hold one, and orders its events is the model's
choice (logs 6 and 7). -/
def Obligations.AdvanceLeavesNothingDue : Prop :=
  (∀ (pins : BitVec 32) (order : List AdvanceEvent) (s : State),
    ∃ t : State, exec (.timebaseAdvance pins order []) s = .next t ∧ ∀ e : AdvanceEvent, t.isDue e = false)
  ∧ (∀ (pins : BitVec 32) (before held : List AdvanceEvent) (s : State) (e : AdvanceEvent) (c : Instr),
      rowTaking (timersOf (before ++ [e])) e = some c → e ∉ held → e ∉ before →
      (∀ x : AdvanceEvent, x ≠ e → x ∈ before) →
      ∃ m t : State, exec (.timebaseAdvance pins (before ++ [e]) (e :: held)) s = .next m
        ∧ exec c m = .next t
        ∧ exec (.timebaseAdvance pins (before ++ [e]) held) s = .next t)
  ∧ ∀ (pins : BitVec 32) (order held : List AdvanceEvent) (s : State) (e : AdvanceEvent) (c : Instr),
      rowTaking (timersOf order) e = some c → e ∉ held → s.NothingLeft →
      (∀ x : AdvanceEvent, x ≠ e → ¬ s.Reaches (s.timebase + 1) x) →
      (∀ n : LineId, (s.line n).sampled = true ∧ ¬ s.Changes n (pins.getLsbD n.val)) →
      ∃ m t : State, exec (.timebaseAdvance pins order (e :: held)) s = .next m
        ∧ exec c m = .next t
        ∧ exec (.timebaseAdvance pins order held) s = .next t

/-- The expiry of a PERIODIC or ONESHOT timer, held at its advance, reloads or stops the timer and steps each
running timer chained to it; a chained timer whose step is its last expires in turn, reloads, and steps the
timers chained to it. Each timer that expires makes one occurrence of its source, once, those that chainOrder
names in its order. With the gate recognised low the step is not taken (R109, R110, R111). That the expiry has
a row of its own, and that one which is not due changes nothing, is the model's choice (log 7); so are
chainOrder and that the occurrences come together (log 6). -/
def Obligations.TimerExpiryReloadsOrStops : Prop :=
  ∀ (n : TimerId) (chainOrder : List TimerId) (s : State),
    ∃ t : State, exec (.timerExpiry n chainOrder) s = .next t
      ∧ (((s.timer n).running = false ∨ (s.timer n).stepDue = false) → t = s)
      ∧ ((s.timer n).running = true → (s.timer n).stepDue = true →
          (∃ g ∈ (s.timer n).gate, (s.line g).recognised = false) →
          t = { s with timers := place s.timers n { s.timer n with stepDue := false }, ports := t.ports }
          ∧ ∀ g : Port, t.port g = { s.port g with attn := (t.offer g).isSome })
      ∧ ((s.timer n).running = true → (s.timer n).stepDue = true → (s.timer n).count = 1 →
          ((s.timer n).mode = .periodic ∨ (s.timer n).mode = .oneshot) →
          (∀ g ∈ (s.timer n).gate, (s.line g).recognised = true) →
          t = { s with pool := t.pool, timers := t.timers, ports := t.ports }
          ∧ (∀ g : Port, t.port g = { s.port g with attn := (t.offer g).isSome })
          ∧ (∃ expired : List TimerId, expired.Nodup ∧ (∀ m : TimerId, m ∈ expired ↔ s.expiresWith n m = true)
            ∧ (chainOrder.Nodup → ∃ others : List TimerId,
                expired = chainOrder.filter (s.expiresWith n) ++ others)
            ∧ t.pool = (expired.foldl (fun (x : State) m => x.occurrence (timerSource m)) s).pool)
          ∧ t.timer n =
              (if (s.timer n).mode = .periodic then
                { s.timer n with count := (s.timer n).reload, stepDue := false }
              else { s.timer n with count := 0, running := false, owner := none, stepDue := false })
          ∧ ∀ m : TimerId, m ≠ n → t.timer m =
              if (s.timer m).running = true ∧ (s.timer m).mode = .chained
                  ∧ s.expiresWith n (s.timer m).chain = true then
                { s.timer m with
                  count := if (s.timer m).count = 1 then (s.timer m).reload else (s.timer m).count - 1
                  stepDue := false }
              else s.timer m)

/-- A SERVICE_EXPIRY that is not due changes nothing. One that is due makes the entry LAPSED; a HELD ticket
whose lapse count thereby reaches its retry limit is abandoned: it is freed, a record is appended, which is
one occurrence of source 48 after the freeing, and there is no re-arm. With no source deferred and source 48
disabled, no ticket follows (R80, R81, R82, R127). That the expiry has a row of its own, and that one which is
not due changes nothing, is the model's choice (log 7). -/
def Obligations.ServiceExpiryAbandons : Prop :=
  ∀ (h g : Port) (k : Fin 4) (s : State),
    (∃ t : State, exec (.serviceExpiry h k) s = .next t ∧
      ((∀ e ∈ (s.port h).stack[k.val]?, e.state = .lapsed ∨ e.expiry ≠ some s.timebase) → t = s))
    ∧ ∀ (e : Entry) (u : Ticket), (s.port h).stack[k.val]? = some e → e.state = .active →
        e.expiry = some s.timebase → s.named e.handle = some u → u.standing = .held g →
        u.retryLimit.val = u.lapses + 1 →
        ∃ t : State, exec (.serviceExpiry h k) s = .next t
          ∧ t = { s with pool := t.pool, ports := t.ports, faults := t.faults }
          ∧ t.pool = ((s.freeTicket e.handle.slot).occurrence faultSource).pool
          ∧ (s.NothingDeferred → s.faultLevel = 0 →
            SlotBecomes s t e.handle.slot { generation := e.handle.generation + 1, ticket := none }
            ∧ t.pool.order = s.pool.order.erase e.handle.slot ∧ t.pool.deferrals = s.pool.deferrals)
          ∧ t.faults = s.faults.appended (.abandoned u.source e.handle (u.lapses + 1) s.timebase)
          ∧ PortsFollow s t h
              { s.port h with stack := (s.port h).stack.set k.val { e with state := .lapsed } }

/-- A HELD ticket that lapses below its retry limit is returned with its lapse count one higher: it is
withdrawn if its condition has gone, and otherwise merges into the WAITING ticket of its source in the older
place, or absorbs its source's deferral, or waits in its own place. A ticket that a withdrawal or a merge frees
has its slot granted; with no source deferred the whole pool is shown. The operation State.returnTicket, in
whose terms other statements speak, does the same with any ticket that is not WAITING (R81, R83, R84). That the
expiry has a row of its own is the model's choice (log 7). -/
def Obligations.ServiceExpiryReturnsTicket : Prop :=
  (∀ (s : State) (i : SlotId), GivesBack s (s.returnTicket i) i)
  ∧ ∀ (h g : Port) (k : Fin 4) (s : State) (e : Entry) (u : Ticket), s.OrderLaw →
    (s.port h).stack[k.val]? = some e → e.state = .active → e.expiry = some s.timebase →
    s.named e.handle = some u → u.standing = .held g → u.lapses + 1 < u.retryLimit.val →
    ∃ t : State, exec (.serviceExpiry h k) s = .next t
      ∧ t = { s with pool := t.pool, ports := t.ports }
      ∧ PortsFollow s t h { s.port h with stack := (s.port h).stack.set k.val { e with state := .lapsed } }
      ∧ t.pool = (State.returnTicket
          { s with
            pool :=
              { s.pool with
                slots := place s.pool.slots e.handle.slot
                  { s.slotAt e.handle.slot with ticket := some { u with lapses := u.lapses + 1 } } } }
          e.handle.slot).pool
      ∧ ((s.lineInactive u.source = true ∨ (u.source = faultSource ∧ s.faults.records = [])) →
          s.NothingDeferred →
          SlotBecomes s t e.handle.slot { generation := e.handle.generation + 1, ticket := none }
          ∧ t.pool.order = s.pool.order.erase e.handle.slot ∧ t.pool.deferrals = s.pool.deferrals)
      ∧ (s.lineInactive u.source = false → (u.source = faultSource → s.faults.records ≠ []) →
          (∀ (w : SlotId) (v : Ticket), SourceId.posted u.source = false → s.waitingTicket u.source = some w →
            s.ticketAt w = some v → s.NothingDeferred →
            (∀ j : SlotId, t.slotAt j =
              if j = e.handle.slot then { generation := e.handle.generation + 1, ticket := none }
              else if j = w then { s.slotAt w with ticket := some { v with
                count := min (u.count + v.count) 255
                stamp := if s.pool.order.idxOf e.handle.slot < s.pool.order.idxOf w then u.stamp else v.stamp
                lapses :=
                  if v.policy = .each then 0
                  else min (if s.pool.order.idxOf e.handle.slot < s.pool.order.idxOf w then u.lapses + 1
                            else v.lapses) (v.retryLimit.val - 1) } }
              else s.slotAt j)
            ∧ t.pool.deferrals = s.pool.deferrals
            ∧ t.pool.order =
                (if s.pool.order.idxOf e.handle.slot < s.pool.order.idxOf w then
                  (s.pool.order.erase w).map fun j => if j = e.handle.slot then w else j
                else s.pool.order.erase e.handle.slot))
          ∧ ((SourceId.posted u.source = true ∨ s.waitingTicket u.source = none) →
            t.pool.order = s.pool.order
            ∧ SlotBecomes s t e.handle.slot { s.slotAt e.handle.slot with ticket := some { u with
                standing := .waiting, lapses := u.lapses + 1
                count := match s.deferralOf u.source with
                  | none => u.count
                  | some d => min (u.count + d.count) 255 } }
            ∧ ∀ src : SourceId, t.deferralOf src = if src = u.source then none else s.deferralOf src))

/-- A lapsed share takes the host out of the round, which settles when nobody is owed any more, with the
re-arm check of its source, and appends a SHARE_LAPSED record, which is one occurrence of source 48 after
that (R73, R80, R86, R127). That the expiry has a row of its own is the model's choice (log 7). -/
def Obligations.ServiceExpiryDropsShare : Prop :=
  ∀ (h : Port) (k : Fin 4) (s : State) (e : Entry) (u : Ticket) (owed claimed : HostSet) (expiry : Option Time),
    (s.port h).stack[k.val]? = some e → e.state = .active → e.expiry = some s.timebase →
    s.named e.handle = some u → u.standing = .spread owed claimed expiry →
    ∃ t : State, exec (.serviceExpiry h k) s = .next t
      ∧ t = { s with pool := t.pool, ports := t.ports, faults := t.faults }
      ∧ ((∃ p : Port, p ≠ h ∧ HostSet.has owed p = true) →
          t.pool = (State.occurrence
            { s with
              pool :=
                { s.pool with
                  slots := place s.pool.slots e.handle.slot
                    { s.slotAt e.handle.slot with ticket := some { u with
                        standing :=
                          .spread (owed &&& ~~~ HostSet.only h) (claimed &&& ~~~ HostSet.only h) expiry } } } }
            faultSource).pool)
      ∧ ((∀ p : Port, p ≠ h → HostSet.has owed p = false) →
          t.pool = (((s.freeTicket e.handle.slot).rearmCheck u.source).occurrence faultSource).pool)
      ∧ t.faults = s.faults.appended (.shareLapsed u.source e.handle h s.timebase)
      ∧ PortsFollow s t h { s.port h with stack := (s.port h).stack.set k.val { e with state := .lapsed } }

/-- A COLLECTION_EXPIRY that is not due changes nothing. One that is due drops every owed host that has not
claimed. The ticket has no collection expiry any more, or it settles when nobody is owed any more, with the
re-arm check of its source. After that come one SHARE_LAPSED record for each dropped host, in ascending order,
each one occurrence of source 48 (R73, R87, R127). That the expiry has a row of its own, and that one which is
not due changes nothing, is the model's choice (log 7). -/
def Obligations.CollectionExpiryDropsUnclaimed : Prop :=
  ∀ (i : SlotId) (s : State),
    (∃ t : State, exec (.collectionExpiry i) s = .next t ∧
      ((∀ u ∈ s.ticketAt i, ∀ owed claimed : HostSet, u.standing ≠ .spread owed claimed (some s.timebase)) →
        t = s))
    ∧ ∀ (u : Ticket) (owed claimed : HostSet) (dropped : List Port), s.ticketAt i = some u →
        u.standing = .spread owed claimed (some s.timebase) →
        dropped = ((List.finRange 4).filter fun p => HostSet.has owed p && !HostSet.has claimed p) →
        ∃ t : State, exec (.collectionExpiry i) s = .next t
          ∧ t = { s with pool := t.pool, ports := t.ports, faults := t.faults }
          ∧ (owed &&& claimed ≠ 0 →
              t.pool = (dropped.foldl (fun (x : State) _ => x.occurrence faultSource)
                { s with
                  pool :=
                    { s.pool with
                      slots := place s.pool.slots i
                        { s.slotAt i with ticket := some { u with
                            standing := .spread (owed &&& claimed) claimed none } } } }).pool)
          ∧ (owed &&& claimed = 0 →
              t.pool = (dropped.foldl (fun (x : State) _ => x.occurrence faultSource)
                ((s.freeTicket i).rearmCheck u.source)).pool)
          ∧ t.faults =
              dropped.foldl (fun q p => q.appended (.shareLapsed u.source (s.handleOf i) p s.timebase)) s.faults
          ∧ ∀ p : Port, t.port p = { s.port p with attn := (t.offer p).isSome }

/-- An AFFINITY_EXPIRY that is due removes the preferred host and the affinity expiry from the ticket, and
the offers follow; one that is not due changes nothing (R47). That the expiry has a row of its own, and that one
which is not due changes nothing, is the model's choice (log 7). -/
def Obligations.AffinityExpiryEndsReservation : Prop :=
  ∀ (i : SlotId) (s : State), ∃ t : State, exec (.affinityExpiry i) s = .next t
    ∧ ((∀ u ∈ s.ticketAt i, ∀ r ∈ u.reservation, r.expiry ≠ s.timebase) → t = s)
    ∧ ∀ (u : Ticket) (r : Reservation), s.ticketAt i = some u → u.reservation = some r →
        r.expiry = s.timebase →
        t = { s with pool := { s.pool with slots := t.pool.slots }, ports := t.ports }
        ∧ SlotBecomes s t i { s.slotAt i with ticket := some { u with reservation := none } }
        ∧ ∀ p : Port, t.port p = { s.port p with attn := (t.offer p).isSome }

/-! ## Laws that every step keeps -/

/-- The state right after reset keeps every law. -/
def Obligations.ResetIsLawful : Prop := State.reset.Lawful

/-- Every step keeps every law of the pool, the hosts, the timers and supervision, from every state that
keeps them, whatever the command. -/
def Obligations.StepKeepsLawful : Prop :=
  ∀ s t : State, s.Lawful → step s = .next t → t.Lawful

/-- Every step keeps the creation order a list of exactly the live tickets (R26), and keeps the pool full
while a source is deferred (R34). -/
def Obligations.StepKeepsPoolOrderAndRoom : Prop :=
  ∀ s t : State, s.OrderLaw → s.NoRoomLaw → step s = .next t → t.OrderLaw ∧ t.NoRoomLaw

/-- Every step keeps each stack within four entries of strictly rising levels (R63), the token with an
attached port (R118), and each detached port without entries and running timers (R139). -/
def Obligations.StepKeepsHostLaws : Prop :=
  ∀ s t : State, s.StackLaw → s.TokenLaw → s.DetachedLaw → step s = .next t →
    t.StackLaw ∧ t.TokenLaw ∧ t.DetachedLaw

/-- Every step keeps every ATTN line low exactly while its host has an offer (R43). -/
def Obligations.StepKeepsAttention : Prop :=
  ∀ s t : State, s.AttentionLaw → step s = .next t → t.AttentionLaw

/-- Every step keeps the ranges of the timer records (R108) and the bound of the fault queue (R126). -/
def Obligations.StepKeepsTimerAndFaultLaws : Prop :=
  ∀ s t : State, s.TimerLaw → s.FaultLaw → step s = .next t → t.TimerLaw ∧ t.FaultLaw
end

