-- ==== Sys2Proof/Laws/Tables.lean ====
section
/-! SUPPORT. Reading a fixed-size table after a write to it. -/

namespace Sys2Proof

variable {α : Type} {n : Nat}

/-- A read at the index just written gives the value written. -/
@[simp] theorem look_place_same (v : Vector α n) (i : Fin n) (x : α) : look (place v i x) i = x := by
  simp [look, place]

/-- A read at another index than the one just written gives what it gave before. -/
theorem look_place_of_ne (v : Vector α n) {i j : Fin n} (x : α) (h : j ≠ i) :
    look (place v i x) j = look v j := by
  have : i.val ≠ j.val := fun e => h (Fin.ext e.symm)
  simp [look, place, this]

/-- A read after a write, in one equation. -/
theorem look_place (v : Vector α n) (i j : Fin n) (x : α) :
    look (place v i x) j = if j = i then x else look v j := by
  by_cases h : j = i
  · subst h; simp
  · simp [h, look_place_of_ne v x h]

/-- The entry at an index of a table given by a rule. -/
@[simp] theorem look_fill (f : Fin n → α) (i : Fin n) : look (fill f) i = f i := by
  simp [look, fill]

/-- An entry of a table that holds one value everywhere. -/
@[simp] theorem look_replicate (x : α) (i : Fin n) : look (Vector.replicate n x) i = x := by
  simp [look]

/-- Two tables that agree at every index are equal. -/
theorem table_ext {v w : Vector α n} (h : ∀ i : Fin n, look v i = look w i) : v = w := by
  ext i hi
  exact h ⟨i, hi⟩

/-- Writing back what stands there changes nothing. -/
@[simp] theorem place_look (v : Vector α n) (i : Fin n) : place v i (look v i) = v := by
  apply table_ext
  intro j
  rw [look_place]
  split <;> simp_all

/-- The later of two writes at one index stands. -/
@[simp] theorem place_place (v : Vector α n) (i : Fin n) (x y : α) :
    place (place v i x) i y = place v i y := by
  apply table_ext
  intro j
  simp only [look_place]
  split <;> simp_all

/-- The table whose rule reads another table is that table. -/
@[simp] theorem fill_look (v : Vector α n) : fill (fun i => look v i) = v :=
  table_ext fun i => by simp

end Sys2Proof
end

