-- ==== Sys2Proof/Laws/State.lean ====
section
/-! SUPPORT. What each update of the state leaves in each field: one lemma a field an update. -/

namespace Sys2Proof.Machine

variable (s : State)

/-! ## setPort -/

@[simp] theorem State.setPort_timebase (h : Port) (p : HostPort) : (s.setPort h p).timebase = s.timebase := rfl
@[simp] theorem State.setPort_sources (h : Port) (p : HostPort) : (s.setPort h p).sources = s.sources := rfl
@[simp] theorem State.setPort_faultLevel (h : Port) (p : HostPort) : (s.setPort h p).faultLevel = s.faultLevel := rfl
@[simp] theorem State.setPort_lines (h : Port) (p : HostPort) : (s.setPort h p).lines = s.lines := rfl
@[simp] theorem State.setPort_pool (h : Port) (p : HostPort) : (s.setPort h p).pool = s.pool := rfl
@[simp] theorem State.setPort_ports (h : Port) (p : HostPort) : (s.setPort h p).ports = place s.ports h p := rfl
@[simp] theorem State.setPort_timers (h : Port) (p : HostPort) : (s.setPort h p).timers = s.timers := rfl
@[simp] theorem State.setPort_token (h : Port) (p : HostPort) : (s.setPort h p).token = s.token := rfl
@[simp] theorem State.setPort_faults (h : Port) (p : HostPort) : (s.setPort h p).faults = s.faults := rfl
@[simp] theorem State.setPort_pending (h : Port) (p : HostPort) : (s.setPort h p).pending = s.pending := rfl

/-! ## setPool -/

@[simp] theorem State.setPool_timebase (p : Pool) : (s.setPool p).timebase = s.timebase := rfl
@[simp] theorem State.setPool_sources (p : Pool) : (s.setPool p).sources = s.sources := rfl
@[simp] theorem State.setPool_faultLevel (p : Pool) : (s.setPool p).faultLevel = s.faultLevel := rfl
@[simp] theorem State.setPool_lines (p : Pool) : (s.setPool p).lines = s.lines := rfl
@[simp] theorem State.setPool_pool (p : Pool) : (s.setPool p).pool = p := rfl
@[simp] theorem State.setPool_ports (p : Pool) : (s.setPool p).ports = s.ports := rfl
@[simp] theorem State.setPool_timers (p : Pool) : (s.setPool p).timers = s.timers := rfl
@[simp] theorem State.setPool_token (p : Pool) : (s.setPool p).token = s.token := rfl
@[simp] theorem State.setPool_faults (p : Pool) : (s.setPool p).faults = s.faults := rfl
@[simp] theorem State.setPool_pending (p : Pool) : (s.setPool p).pending = s.pending := rfl

/-! ## setSlot -/

@[simp] theorem State.setSlot_timebase (i : SlotId) (x : Slot) : (s.setSlot i x).timebase = s.timebase := rfl
@[simp] theorem State.setSlot_sources (i : SlotId) (x : Slot) : (s.setSlot i x).sources = s.sources := rfl
@[simp] theorem State.setSlot_faultLevel (i : SlotId) (x : Slot) : (s.setSlot i x).faultLevel = s.faultLevel := rfl
@[simp] theorem State.setSlot_lines (i : SlotId) (x : Slot) : (s.setSlot i x).lines = s.lines := rfl
@[simp] theorem State.setSlot_pool (i : SlotId) (x : Slot) : (s.setSlot i x).pool =
    { s.pool with slots := place s.pool.slots i x } := rfl
@[simp] theorem State.setSlot_ports (i : SlotId) (x : Slot) : (s.setSlot i x).ports = s.ports := rfl
@[simp] theorem State.setSlot_timers (i : SlotId) (x : Slot) : (s.setSlot i x).timers = s.timers := rfl
@[simp] theorem State.setSlot_token (i : SlotId) (x : Slot) : (s.setSlot i x).token = s.token := rfl
@[simp] theorem State.setSlot_faults (i : SlotId) (x : Slot) : (s.setSlot i x).faults = s.faults := rfl
@[simp] theorem State.setSlot_pending (i : SlotId) (x : Slot) : (s.setSlot i x).pending = s.pending := rfl

/-! ## setTicket -/

@[simp] theorem State.setTicket_timebase (i : SlotId) (u : Ticket) : (s.setTicket i u).timebase = s.timebase := rfl
@[simp] theorem State.setTicket_sources (i : SlotId) (u : Ticket) : (s.setTicket i u).sources = s.sources := rfl
@[simp] theorem State.setTicket_faultLevel (i : SlotId) (u : Ticket) : (s.setTicket i u).faultLevel = s.faultLevel := rfl
@[simp] theorem State.setTicket_lines (i : SlotId) (u : Ticket) : (s.setTicket i u).lines = s.lines := rfl
@[simp] theorem State.setTicket_pool (i : SlotId) (u : Ticket) : (s.setTicket i u).pool =
    { s.pool with slots := place s.pool.slots i { s.slotAt i with ticket := some u } } := rfl
@[simp] theorem State.setTicket_ports (i : SlotId) (u : Ticket) : (s.setTicket i u).ports = s.ports := rfl
@[simp] theorem State.setTicket_timers (i : SlotId) (u : Ticket) : (s.setTicket i u).timers = s.timers := rfl
@[simp] theorem State.setTicket_token (i : SlotId) (u : Ticket) : (s.setTicket i u).token = s.token := rfl
@[simp] theorem State.setTicket_faults (i : SlotId) (u : Ticket) : (s.setTicket i u).faults = s.faults := rfl
@[simp] theorem State.setTicket_pending (i : SlotId) (u : Ticket) : (s.setTicket i u).pending = s.pending := rfl

/-! ## setOrder -/

@[simp] theorem State.setOrder_timebase (o : List SlotId) : (s.setOrder o).timebase = s.timebase := rfl
@[simp] theorem State.setOrder_sources (o : List SlotId) : (s.setOrder o).sources = s.sources := rfl
@[simp] theorem State.setOrder_faultLevel (o : List SlotId) : (s.setOrder o).faultLevel = s.faultLevel := rfl
@[simp] theorem State.setOrder_lines (o : List SlotId) : (s.setOrder o).lines = s.lines := rfl
@[simp] theorem State.setOrder_pool (o : List SlotId) : (s.setOrder o).pool = { s.pool with order := o } := rfl
@[simp] theorem State.setOrder_ports (o : List SlotId) : (s.setOrder o).ports = s.ports := rfl
@[simp] theorem State.setOrder_timers (o : List SlotId) : (s.setOrder o).timers = s.timers := rfl
@[simp] theorem State.setOrder_token (o : List SlotId) : (s.setOrder o).token = s.token := rfl
@[simp] theorem State.setOrder_faults (o : List SlotId) : (s.setOrder o).faults = s.faults := rfl
@[simp] theorem State.setOrder_pending (o : List SlotId) : (s.setOrder o).pending = s.pending := rfl

/-! ## setDeferral -/

@[simp] theorem State.setDeferral_timebase (src : SourceId) (d : Option Deferral) : (s.setDeferral src d).timebase =
    s.timebase := rfl
@[simp] theorem State.setDeferral_sources (src : SourceId) (d : Option Deferral) : (s.setDeferral src d).sources =
    s.sources := rfl
@[simp] theorem State.setDeferral_faultLevel (src : SourceId) (d : Option Deferral) : (s.setDeferral src d).faultLevel =
    s.faultLevel := rfl
@[simp] theorem State.setDeferral_lines (src : SourceId) (d : Option Deferral) : (s.setDeferral src d).lines =
    s.lines := rfl
@[simp] theorem State.setDeferral_pool (src : SourceId) (d : Option Deferral) : (s.setDeferral src d).pool =
    { s.pool with deferrals := place s.pool.deferrals src d } := rfl
@[simp] theorem State.setDeferral_ports (src : SourceId) (d : Option Deferral) : (s.setDeferral src d).ports =
    s.ports := rfl
@[simp] theorem State.setDeferral_timers (src : SourceId) (d : Option Deferral) : (s.setDeferral src d).timers =
    s.timers := rfl
@[simp] theorem State.setDeferral_token (src : SourceId) (d : Option Deferral) : (s.setDeferral src d).token =
    s.token := rfl
@[simp] theorem State.setDeferral_faults (src : SourceId) (d : Option Deferral) : (s.setDeferral src d).faults =
    s.faults := rfl
@[simp] theorem State.setDeferral_pending (src : SourceId) (d : Option Deferral) : (s.setDeferral src d).pending =
    s.pending := rfl

/-! ## setLine -/

@[simp] theorem State.setLine_timebase (n : LineId) (l : Line) : (s.setLine n l).timebase = s.timebase := rfl
@[simp] theorem State.setLine_sources (n : LineId) (l : Line) : (s.setLine n l).sources = s.sources := rfl
@[simp] theorem State.setLine_faultLevel (n : LineId) (l : Line) : (s.setLine n l).faultLevel = s.faultLevel := rfl
@[simp] theorem State.setLine_lines (n : LineId) (l : Line) : (s.setLine n l).lines = place s.lines n l := rfl
@[simp] theorem State.setLine_pool (n : LineId) (l : Line) : (s.setLine n l).pool = s.pool := rfl
@[simp] theorem State.setLine_ports (n : LineId) (l : Line) : (s.setLine n l).ports = s.ports := rfl
@[simp] theorem State.setLine_timers (n : LineId) (l : Line) : (s.setLine n l).timers = s.timers := rfl
@[simp] theorem State.setLine_token (n : LineId) (l : Line) : (s.setLine n l).token = s.token := rfl
@[simp] theorem State.setLine_faults (n : LineId) (l : Line) : (s.setLine n l).faults = s.faults := rfl
@[simp] theorem State.setLine_pending (n : LineId) (l : Line) : (s.setLine n l).pending = s.pending := rfl

/-! ## setTimer -/

@[simp] theorem State.setTimer_timebase (n : TimerId) (x : Timer) : (s.setTimer n x).timebase = s.timebase := rfl
@[simp] theorem State.setTimer_sources (n : TimerId) (x : Timer) : (s.setTimer n x).sources = s.sources := rfl
@[simp] theorem State.setTimer_faultLevel (n : TimerId) (x : Timer) : (s.setTimer n x).faultLevel = s.faultLevel := rfl
@[simp] theorem State.setTimer_lines (n : TimerId) (x : Timer) : (s.setTimer n x).lines = s.lines := rfl
@[simp] theorem State.setTimer_pool (n : TimerId) (x : Timer) : (s.setTimer n x).pool = s.pool := rfl
@[simp] theorem State.setTimer_ports (n : TimerId) (x : Timer) : (s.setTimer n x).ports = s.ports := rfl
@[simp] theorem State.setTimer_timers (n : TimerId) (x : Timer) : (s.setTimer n x).timers = place s.timers n x := rfl
@[simp] theorem State.setTimer_token (n : TimerId) (x : Timer) : (s.setTimer n x).token = s.token := rfl
@[simp] theorem State.setTimer_faults (n : TimerId) (x : Timer) : (s.setTimer n x).faults = s.faults := rfl
@[simp] theorem State.setTimer_pending (n : TimerId) (x : Timer) : (s.setTimer n x).pending = s.pending := rfl

/-! ## setStack -/

@[simp] theorem State.setStack_timebase (h : Port) (es : List Entry) : (s.setStack h es).timebase = s.timebase := rfl
@[simp] theorem State.setStack_sources (h : Port) (es : List Entry) : (s.setStack h es).sources = s.sources := rfl
@[simp] theorem State.setStack_faultLevel (h : Port) (es : List Entry) : (s.setStack h es).faultLevel =
    s.faultLevel := rfl
@[simp] theorem State.setStack_lines (h : Port) (es : List Entry) : (s.setStack h es).lines = s.lines := rfl
@[simp] theorem State.setStack_pool (h : Port) (es : List Entry) : (s.setStack h es).pool = s.pool := rfl
@[simp] theorem State.setStack_ports (h : Port) (es : List Entry) : (s.setStack h es).ports =
    place s.ports h { s.port h with stack := es } := rfl
@[simp] theorem State.setStack_timers (h : Port) (es : List Entry) : (s.setStack h es).timers = s.timers := rfl
@[simp] theorem State.setStack_token (h : Port) (es : List Entry) : (s.setStack h es).token = s.token := rfl
@[simp] theorem State.setStack_faults (h : Port) (es : List Entry) : (s.setStack h es).faults = s.faults := rfl
@[simp] theorem State.setStack_pending (h : Port) (es : List Entry) : (s.setStack h es).pending = s.pending := rfl

/-! ## setLink -/

@[simp] theorem State.setLink_timebase (h : Port) (l : Link) : (s.setLink h l).timebase = s.timebase := rfl
@[simp] theorem State.setLink_sources (h : Port) (l : Link) : (s.setLink h l).sources = s.sources := rfl
@[simp] theorem State.setLink_faultLevel (h : Port) (l : Link) : (s.setLink h l).faultLevel = s.faultLevel := rfl
@[simp] theorem State.setLink_lines (h : Port) (l : Link) : (s.setLink h l).lines = s.lines := rfl
@[simp] theorem State.setLink_pool (h : Port) (l : Link) : (s.setLink h l).pool = s.pool := rfl
@[simp] theorem State.setLink_ports (h : Port) (l : Link) : (s.setLink h l).ports =
    place s.ports h { s.port h with link := l } := rfl
@[simp] theorem State.setLink_timers (h : Port) (l : Link) : (s.setLink h l).timers = s.timers := rfl
@[simp] theorem State.setLink_token (h : Port) (l : Link) : (s.setLink h l).token = s.token := rfl
@[simp] theorem State.setLink_faults (h : Port) (l : Link) : (s.setLink h l).faults = s.faults := rfl
@[simp] theorem State.setLink_pending (h : Port) (l : Link) : (s.setLink h l).pending = s.pending := rfl

/-! ## answer -/

@[simp] theorem State.answer_timebase (h : Port) (tag : Byte) (st : Status) (d : List Byte) : (s.answer h tag st d).timebase =
    s.timebase := rfl
@[simp] theorem State.answer_sources (h : Port) (tag : Byte) (st : Status) (d : List Byte) : (s.answer h tag st d).sources =
    s.sources := rfl
@[simp] theorem State.answer_faultLevel (h : Port) (tag : Byte) (st : Status) (d : List Byte) : (s.answer h tag st d).faultLevel =
    s.faultLevel := rfl
@[simp] theorem State.answer_lines (h : Port) (tag : Byte) (st : Status) (d : List Byte) : (s.answer h tag st d).lines =
    s.lines := rfl
@[simp] theorem State.answer_pool (h : Port) (tag : Byte) (st : Status) (d : List Byte) : (s.answer h tag st d).pool =
    s.pool := rfl
@[simp] theorem State.answer_ports (h : Port) (tag : Byte) (st : Status) (d : List Byte) : (s.answer h tag st d).ports =
    place s.ports h
    { s.port h with
      link := { (s.port h).link with slot := makeResponse st tag d (s.portFlags h) } } := rfl
@[simp] theorem State.answer_timers (h : Port) (tag : Byte) (st : Status) (d : List Byte) : (s.answer h tag st d).timers =
    s.timers := rfl
@[simp] theorem State.answer_token (h : Port) (tag : Byte) (st : Status) (d : List Byte) : (s.answer h tag st d).token =
    s.token := rfl
@[simp] theorem State.answer_faults (h : Port) (tag : Byte) (st : Status) (d : List Byte) : (s.answer h tag st d).faults =
    s.faults := rfl
@[simp] theorem State.answer_pending (h : Port) (tag : Byte) (st : Status) (d : List Byte) : (s.answer h tag st d).pending =
    s.pending := rfl

/-! ## The records behind an update -/

/-- A port after a port was replaced. -/
theorem State.setPort_port (h g : Port) (p : HostPort) :
    (s.setPort h p).port g = if g = h then p else s.port g := look_place _ _ _ _

@[simp] theorem State.setPort_port_same (h : Port) (p : HostPort) : (s.setPort h p).port h = p :=
  look_place_same _ _ _

/-- A port after a stack was replaced. -/
theorem State.setStack_port (h g : Port) (es : List Entry) :
    (s.setStack h es).port g = if g = h then { s.port h with stack := es } else s.port g :=
  look_place _ _ _ _

/-- A port after a link was replaced. -/
theorem State.setLink_port (h g : Port) (l : Link) :
    (s.setLink h l).port g = if g = h then { s.port h with link := l } else s.port g :=
  look_place _ _ _ _

/-- A port after an answer. -/
theorem State.answer_port (h g : Port) (tag : Byte) (st : Status) (d : List Byte) :
    (s.answer h tag st d).port g =
      if g = h then
        { s.port h with
          link := { (s.port h).link with slot := makeResponse st tag d (s.portFlags h) } }
      else s.port g := look_place _ _ _ _

/-- A slot after a slot was replaced. -/
theorem State.setSlot_slotAt (i j : SlotId) (x : Slot) :
    (s.setSlot i x).slotAt j = if j = i then x else s.slotAt j := look_place _ _ _ _

/-- A slot after its ticket was replaced. -/
theorem State.setTicket_slotAt (i j : SlotId) (u : Ticket) :
    (s.setTicket i u).slotAt j = if j = i then { s.slotAt i with ticket := some u } else s.slotAt j :=
  look_place _ _ _ _

/-- A ticket after a ticket was replaced. -/
theorem State.setTicket_ticketAt (i j : SlotId) (u : Ticket) :
    (s.setTicket i u).ticketAt j = if j = i then some u else s.ticketAt j := by
  unfold State.ticketAt
  rw [State.setTicket_slotAt]
  split <;> rfl

@[simp] theorem State.setOrder_slotAt (o : List SlotId) (j : SlotId) : (s.setOrder o).slotAt j = s.slotAt j := rfl

@[simp] theorem State.setDeferral_slotAt (src : SourceId) (d : Option Deferral) (j : SlotId) :
    (s.setDeferral src d).slotAt j = s.slotAt j := rfl

/-- A deferral after a deferral was replaced. -/
theorem State.setDeferral_deferralOf (src other : SourceId) (d : Option Deferral) :
    (s.setDeferral src d).deferralOf other = if other = src then d else s.deferralOf other :=
  look_place _ _ _ _

@[simp] theorem State.setTicket_deferralOf (i : SlotId) (u : Ticket) (src : SourceId) :
    (s.setTicket i u).deferralOf src = s.deferralOf src := rfl

@[simp] theorem State.setOrder_deferralOf (o : List SlotId) (src : SourceId) :
    (s.setOrder o).deferralOf src = s.deferralOf src := rfl

/-- A line after a line was replaced. -/
theorem State.setLine_line (n m : LineId) (l : Line) :
    (s.setLine n l).line m = if m = n then l else s.line m := look_place _ _ _ _

/-- A timer after a timer was replaced. -/
theorem State.setTimer_timer (n m : TimerId) (x : Timer) :
    (s.setTimer n x).timer m = if m = n then x else s.timer m := look_place _ _ _ _

/-- A source's record after a record was replaced; of source 48 the level alone is kept. -/
theorem State.setConfig_config (src other : SourceId) (r : SourceRecord) (hs : src ≠ faultSource) :
    (s.setConfig src r).config other = if other = src then r else s.config other := by
  have hlt : src.val < 48 := by
    have := src.isLt
    have : src.val ≠ 48 := fun e => hs (Fin.ext e)
    omega
  unfold State.setConfig
  rw [dif_pos hlt]
  by_cases ho : other.val < 48
  · simp only [State.config, dif_pos ho, look_place, Fin.mk.injEq]
    simp [Fin.ext_iff]
  · have hne : other ≠ src := fun e => ho (e ▸ hlt)
    simp [State.config, ho, hne, State.faultRecordOf, State.tokenSet]

/-- Two states whose fields agree are equal. -/
theorem State.ext_fields {s t : State} (h1 : s.timebase = t.timebase) (h2 : s.sources = t.sources)
    (h3 : s.faultLevel = t.faultLevel) (h4 : s.lines = t.lines) (h5 : s.pool = t.pool) (h6 : s.ports = t.ports)
    (h7 : s.timers = t.timers) (h8 : s.token = t.token) (h9 : s.faults = t.faults)
    (h10 : s.pending = t.pending) : s = t := by
  cases s; cases t; simp_all

end Sys2Proof.Machine
end

