-- ==== Sys2Proof/Laws/Pool.lean ====
section
/-! SUPPORT. What the operations of the Ticket Pool can do: each changes the pool alone, and each has one
lemma that says all of its outcomes. -/

namespace Sys2Proof.Machine

/-! ## Only the pool -/

/-- From s to t nothing changes but the pool. -/
def OnlyPool (s t : State) : Prop := t = s.setPool t.pool

theorem OnlyPool.refl (s : State) : OnlyPool s s := rfl

theorem OnlyPool.trans {s t u : State} (h1 : OnlyPool s t) (h2 : OnlyPool t u) : OnlyPool s u := by
  unfold OnlyPool at *; rw [h2, h1]; rfl

theorem OnlyPool.foldl {α : Type} {f : State → α → State} (hf : ∀ s a, OnlyPool s (f s a)) (l : List α)
    (s : State) : OnlyPool s (l.foldl f s) := by
  induction l generalizing s with
  | nil => exact .refl s
  | cons a l ih => exact (hf s a).trans (ih _)

section
variable {s t : State} (h : OnlyPool s t)
include h

theorem OnlyPool.timebase : t.timebase = s.timebase := by rw [h]; rfl
theorem OnlyPool.sources : t.sources = s.sources := by rw [h]; rfl
theorem OnlyPool.faultLevel : t.faultLevel = s.faultLevel := by rw [h]; rfl
theorem OnlyPool.lines : t.lines = s.lines := by rw [h]; rfl
theorem OnlyPool.ports : t.ports = s.ports := by rw [h]; rfl
theorem OnlyPool.timers : t.timers = s.timers := by rw [h]; rfl
theorem OnlyPool.token : t.token = s.token := by rw [h]; rfl
theorem OnlyPool.faults : t.faults = s.faults := by rw [h]; rfl
theorem OnlyPool.pending : t.pending = s.pending := by rw [h]; rfl
theorem OnlyPool.port (g : Port) : t.port g = s.port g := by rw [h]; rfl
theorem OnlyPool.attached (g : Port) : t.attached g = s.attached g := by rw [h]; rfl
theorem OnlyPool.line (n : LineId) : t.line n = s.line n := by rw [h]; rfl
theorem OnlyPool.timer (n : TimerId) : t.timer n = s.timer n := by rw [h]; rfl
theorem OnlyPool.config (src : SourceId) : t.config src = s.config src := by rw [h]; rfl
theorem OnlyPool.tokenSet : t.tokenSet = s.tokenSet := by rw [h]; rfl
theorem OnlyPool.lineActive (src : SourceId) : t.lineActive src = s.lineActive src := by rw [h]; rfl
theorem OnlyPool.lineInactive (src : SourceId) : t.lineInactive src = s.lineInactive src := by rw [h]; rfl
theorem OnlyPool.reservationFor (r : SourceRecord) (st : Time) :
    t.reservationFor r st = s.reservationFor r st := by rw [h]; rfl
theorem OnlyPool.newTicket (src : SourceId) (c : Nat) (st : Time) (p : Option (BitVec 16)) :
    t.newTicket src c st p = s.newTicket src c st p := by rw [h]; rfl

end

theorem setTicket_onlyPool (s : State) (i : SlotId) (u : Ticket) : OnlyPool s (s.setTicket i u) := rfl

theorem setDeferral_onlyPool (s : State) (src : SourceId) (d : Option Deferral) :
    OnlyPool s (s.setDeferral src d) := rfl

theorem createTicket_onlyPool (s : State) (i : SlotId) (src : SourceId) (c : Nat) (st : Time)
    (p : Option (BitVec 16)) : OnlyPool s (s.createTicket i src c st p) := rfl

theorem clearSlot_onlyPool (s : State) (i : SlotId) : OnlyPool s (s.clearSlot i) := rfl

theorem grant_onlyPool (s : State) (i : SlotId) : OnlyPool s (s.grant i) := by
  unfold State.grant
  split
  · rfl
  · split <;> rfl

theorem freeTicket_onlyPool (s : State) (i : SlotId) : OnlyPool s (s.freeTicket i) := by
  unfold State.freeTicket
  split
  · rfl
  · exact (clearSlot_onlyPool s i).trans (grant_onlyPool _ i)

theorem coalesce_onlyPool (s : State) (i : SlotId) : OnlyPool s (s.coalesce i) := by
  unfold State.coalesce
  split <;> rfl

theorem occurrence_onlyPool (s : State) (src : SourceId) (p : BitVec 16) : OnlyPool s (s.occurrence src p) := by
  unfold State.occurrence
  split
  · rfl
  · split <;> rfl
  · exact coalesce_onlyPool s _
  all_goals rfl

theorem withdraw_onlyPool (s : State) (src : SourceId) : OnlyPool s (s.withdraw src) := by
  unfold State.withdraw
  split
  · exact (freeTicket_onlyPool s _).trans (setDeferral_onlyPool _ _ _)
  · rfl

theorem disable_onlyPool (s : State) (src : SourceId) : OnlyPool s (s.disable src) :=
  (OnlyPool.foldl freeTicket_onlyPool _ s).trans (setDeferral_onlyPool _ _ _)

theorem rearm_onlyPool (s : State) (src : SourceId) : OnlyPool s (s.rearm src) := by
  unfold State.rearm
  split
  · exact occurrence_onlyPool s src 0
  · rfl

theorem settle_onlyPool (s : State) (i : SlotId) (src : SourceId) : OnlyPool s (s.settle i src) :=
  (freeTicket_onlyPool s i).trans (rearm_onlyPool _ src)

theorem leaveRound_onlyPool (s : State) (h : Port) (i : SlotId) : OnlyPool s (s.leaveRound h i) := by
  unfold State.leaveRound
  split
  · rfl
  · split
    · split
      · exact settle_onlyPool s i _
      · rfl
    · rfl

theorem mergeInto_onlyPool (s : State) (r w : SlotId) : OnlyPool s (s.mergeInto r w) := by
  unfold State.mergeInto
  split
  · exact OnlyPool.trans (t := (s.setTicket w _).setOrder _) rfl (freeTicket_onlyPool _ r)
  · rfl

theorem returnTicket_onlyPool (s : State) (i : SlotId) : OnlyPool s (s.returnTicket i) := by
  unfold State.returnTicket
  split
  · rfl
  · split
    · exact freeTicket_onlyPool s i
    · split
      · exact mergeInto_onlyPool s i _
      · split <;> rfl

theorem endReservation_onlyPool (s : State) (i : SlotId) : OnlyPool s (s.endReservation i) := by
  unfold State.endReservation
  split <;> rfl

theorem endReservationsOf_onlyPool (s : State) (h : Port) : OnlyPool s (s.endReservationsOf h) := rfl

theorem dropUnclaimed_onlyPool (s : State) (h : Port) : OnlyPool s (s.dropUnclaimed h) :=
  OnlyPool.foldl (fun s i => leaveRound_onlyPool s h i) _ s

/-! ## The lowest free slot -/

/-- The first index of a range that meets a test. -/
theorem find_finRange {n : Nat} {p : Fin n → Bool} {i : Fin n} :
    (List.finRange n).find? p = some i ↔ p i = true ∧ ∀ k : Fin n, k < i → p k = false := by
  rw [List.find?_eq_some_iff_getElem]
  constructor
  · rintro ⟨hp, k, hk, rfl, hlt⟩
    refine ⟨hp, fun j hj => ?_⟩
    have hjk : j.val < k := by simpa [Fin.lt_def] using hj
    simpa using hlt j.val hjk
  · rintro ⟨hp, hlt⟩
    refine ⟨hp, i.val, by simp, by simp, fun j hj => ?_⟩
    have := hlt ⟨j, by omega⟩ (by simpa [Fin.lt_def] using hj)
    simpa using this

/-- The lowest free slot is FREE, and every slot below it is occupied (R20). -/
theorem lowestFree_eq_some {s : State} {i : SlotId} :
    s.lowestFree = some i ↔ s.ticketAt i = none ∧ ∀ k : SlotId, k < i → (s.ticketAt k).isSome = true := by
  unfold State.lowestFree
  rw [find_finRange]
  simp [State.isFree, Option.isSome_iff_ne_none]

/-- There is no free slot exactly when every slot is occupied. -/
theorem lowestFree_eq_none {s : State} :
    s.lowestFree = none ↔ ∀ i : SlotId, (s.ticketAt i).isSome = true := by
  simp [State.lowestFree, State.isFree, List.find?_eq_none, Option.isSome_iff_ne_none]

/-! ## The slot arbiter -/

/-- The arbiter's choice over an initial part of the sources, in ascending order. -/
theorem arbiter_fold (s : State) (l : List SourceId) (hl : l.Pairwise (· < ·)) (best : Option SourceId)
    (hb : ∀ b ∈ best, (s.deferralOf b).isSome = true ∧ ∀ x ∈ l, b < x) :
    let r := l.foldl
      (fun best src =>
        if (s.deferralOf src).isSome then
          match best with
          | none => some src
          | some b => if (s.config b).level < (s.config src).level then some src else some b
        else best) best
    (r = none → best = none ∧ ∀ x ∈ l, s.deferralOf x = none)
    ∧ ∀ c ∈ r, (s.deferralOf c).isSome = true
        ∧ (∀ b ∈ best, (s.config b).level < (s.config c).level ∨ c = b)
        ∧ ∀ x ∈ l, (s.deferralOf x).isSome = true →
            (s.config x).level < (s.config c).level ∨ ((s.config x).level = (s.config c).level ∧ c ≤ x) := by
  induction l generalizing best with
  | nil =>
    refine ⟨fun h => ⟨h, by simp⟩, fun c hc => ⟨(hb c hc).1, fun b hb' => ?_, by simp⟩⟩
    simp only [List.foldl_nil] at hc
    right
    simpa [hb'] using (Option.mem_unique hc hb')
  | cons a l ih =>
    rw [List.pairwise_cons] at hl
    simp only [List.foldl_cons]
    by_cases ha : (s.deferralOf a).isSome = true
    · simp only [ha, if_true]
      cases best with
      | none =>
        have := ih hl.2 (some a) (by simpa using ⟨ha, hl.1⟩)
        refine ⟨fun h => by simpa using (this.1 h).1, fun c hc => ?_⟩
        obtain ⟨h1, h2, h3⟩ := this.2 c hc
        refine ⟨h1, by simp, fun x hx hxd => ?_⟩
        rcases List.mem_cons.1 hx with rfl | hx
        · rcases h2 x (by simp) with h | rfl
          · exact .inl h
          · exact .inr ⟨rfl, le_rfl⟩
        · exact h3 x hx hxd
      | some b =>
        obtain ⟨hbd, hbl⟩ := hb b rfl
        by_cases hlt : (s.config b).level < (s.config a).level
        · simp only [hlt, if_true]
          have := ih hl.2 (some a) (by simpa using ⟨ha, hl.1⟩)
          refine ⟨fun h => by simpa using (this.1 h).1, fun c hc => ?_⟩
          obtain ⟨h1, h2, h3⟩ := this.2 c hc
          have hac := h2 a (by simp)
          refine ⟨h1, fun b' hb' => ?_, fun x hx hxd => ?_⟩
          · have : b' = b := by simpa using hb'.symm
            subst this
            left
            rcases hac with h | rfl
            · exact hlt.trans h
            · exact hlt
          · rcases List.mem_cons.1 hx with rfl | hx
            · rcases hac with h | rfl
              · exact .inl h
              · exact .inr ⟨rfl, le_rfl⟩
            · exact h3 x hx hxd
        · simp only [hlt, if_false]
          have := ih hl.2 (some b) (by simpa using ⟨hbd, fun x hx => hbl x (List.mem_cons_of_mem _ hx)⟩)
          refine ⟨fun h => by simpa using (this.1 h).1, fun c hc => ?_⟩
          obtain ⟨h1, h2, h3⟩ := this.2 c hc
          refine ⟨h1, h2, fun x hx hxd => ?_⟩
          rcases List.mem_cons.1 hx with rfl | hx
          · have hbx := hbl x (by simp)
            rcases h2 b (by simp) with h | rfl
            · exact .inl (lt_of_le_of_lt (not_lt.1 hlt) h)
            · rcases lt_or_eq_of_le (not_lt.1 hlt) with h | h
              · exact .inl h
              · exact .inr ⟨h, hbx.le⟩
          · exact h3 x hx hxd
    · have ha' : s.deferralOf a = none := by simpa using ha
      simp only [ha]
      have := ih hl.2 best (fun b hb' => ⟨(hb b hb').1, fun x hx => (hb b hb').2 x (List.mem_cons_of_mem _ hx)⟩)
      refine ⟨fun h => ⟨(this.1 h).1, fun x hx => ?_⟩, fun c hc => ?_⟩
      · rcases List.mem_cons.1 hx with rfl | hx
        · exact ha'
        · exact (this.1 h).2 x hx
      · obtain ⟨h1, h2, h3⟩ := this.2 c hc
        refine ⟨h1, h2, fun x hx hxd => ?_⟩
        rcases List.mem_cons.1 hx with rfl | hx
        · exact absurd hxd ha
        · exact h3 x hx hxd

/-- The arbiter serves no source exactly when none is deferred (R33). -/
theorem arbiter_eq_none {s : State} : s.arbiter = none ↔ s.NothingDeferred := by
  have h := arbiter_fold s (List.finRange 49) (List.pairwise_lt_finRange 49) none (by simp)
  constructor
  · intro hn src
    exact (h.1 hn).2 src (List.mem_finRange src)
  · intro hn
    cases ha : s.arbiter with
    | none => rfl
    | some c => have := (h.2 c ha).1; rw [hn c] at this; simp at this

/-- The source the arbiter serves is the one R33 names. -/
theorem arbiter_firstDeferred {s : State} {src : SourceId} (ha : s.arbiter = some src) : s.FirstDeferred src := by
  have h := arbiter_fold s (List.finRange 49) (List.pairwise_lt_finRange 49) none (by simp)
  obtain ⟨h1, -, h3⟩ := h.2 src ha
  exact ⟨h1, fun o ho => h3 o (List.mem_finRange o) ho⟩

/-- Only one source is first among the deferred. -/
theorem firstDeferred_unique {s : State} {a b : SourceId} (ha : s.FirstDeferred a) (hb : s.FirstDeferred b) :
    a = b := by
  have h1 := ha.2 b hb.1
  have h2 := hb.2 a ha.1
  rcases h1 with h1 | ⟨e1, l1⟩
  · rcases h2 with h2 | ⟨e2, l2⟩
    · exact absurd h1 (not_lt.2 h2.le)
    · exact absurd h1 (by rw [e2]; exact lt_irrefl _)
  · rcases h2 with h2 | ⟨e2, l2⟩
    · exact absurd h2 (by rw [e1]; exact lt_irrefl _)
    · exact le_antisymm l1 l2

/-- The arbiter serves the source that R33 names, if there is one. -/
theorem arbiter_eq_some {s : State} {src : SourceId} : s.arbiter = some src ↔ s.FirstDeferred src := by
  refine ⟨arbiter_firstDeferred, fun h => ?_⟩
  cases ha : s.arbiter with
  | none => have h1 := h.1; rw [arbiter_eq_none.1 ha src] at h1; simp at h1
  | some c => exact congrArg some (firstDeferred_unique (arbiter_firstDeferred ha) h)

/-! ## Creation, freeing and grants -/

/-- A creation puts one ticket in its slot and at the young end of the creation order. -/
theorem createTicket_slotAt (s : State) (i j : SlotId) (src : SourceId) (c : Nat) (st : Time)
    (p : Option (BitVec 16)) :
    (s.createTicket i src c st p).slotAt j =
      if j = i then { s.slotAt i with ticket := some (s.newTicket src c st p) } else s.slotAt j :=
  State.setTicket_slotAt s i j _

@[simp] theorem createTicket_order (s : State) (i : SlotId) (src : SourceId) (c : Nat) (st : Time)
    (p : Option (BitVec 16)) : (s.createTicket i src c st p).pool.order = s.pool.order ++ [i] := rfl

@[simp] theorem createTicket_deferrals (s : State) (i : SlotId) (src : SourceId) (c : Nat) (st : Time)
    (p : Option (BitVec 16)) : (s.createTicket i src c st p).pool.deferrals = s.pool.deferrals := rfl

/-- A cleared slot is FREE with its generation advanced. -/
theorem clearSlot_slotAt (s : State) (i j : SlotId) :
    (s.clearSlot i).slotAt j =
      if j = i then { generation := (s.slotAt i).generation + 1, ticket := none } else s.slotAt j :=
  State.setSlot_slotAt s i j _

@[simp] theorem clearSlot_order (s : State) (i : SlotId) : (s.clearSlot i).pool.order = s.pool.order.erase i := rfl

@[simp] theorem clearSlot_deferrals (s : State) (i : SlotId) :
    (s.clearSlot i).pool.deferrals = s.pool.deferrals := rfl

/-- With nothing deferred a grant does nothing. -/
theorem grant_of_nothingDeferred {s : State} (h : s.NothingDeferred) (i : SlotId) : s.grant i = s := by
  simp [State.grant, arbiter_eq_none.2 h]

/-- A grant gives the slot to the source that R33 names. -/
theorem grant_of_firstDeferred {s : State} {src : SourceId} {d : Deferral} (h : s.FirstDeferred src)
    (hd : s.deferralOf src = some d) (i : SlotId) :
    s.grant i = (s.createTicket i src d.count d.stamp none).setDeferral src none := by
  simp [State.grant, arbiter_eq_some.2 h, hd]

/-- Everything a freeing can do: nothing to a FREE slot; the slot becomes FREE while nothing is deferred;
and otherwise the slot goes to the source that R33 names. -/
theorem freeTicket_cases (s : State) (i : SlotId) :
    (s.ticketAt i = none ∧ s.freeTicket i = s)
    ∨ ((s.ticketAt i).isSome = true ∧ s.NothingDeferred ∧ s.freeTicket i = s.clearSlot i)
    ∨ ∃ (src : SourceId) (d : Deferral), (s.ticketAt i).isSome = true ∧ s.FirstDeferred src
        ∧ s.deferralOf src = some d
        ∧ s.freeTicket i = ((s.clearSlot i).createTicket i src d.count d.stamp none).setDeferral src none := by
  unfold State.freeTicket
  cases ht : s.ticketAt i with
  | none => exact .inl ⟨rfl, rfl⟩
  | some u =>
    right
    simp only [Option.isSome_some, true_and]
    cases ha : s.arbiter with
    | none =>
      have hn := arbiter_eq_none.1 ha
      exact .inl ⟨hn, grant_of_nothingDeferred (s := s.clearSlot i) hn i⟩
    | some src =>
      have hf := arbiter_eq_some.1 ha
      obtain ⟨d, hd⟩ := Option.isSome_iff_exists.1 hf.1
      exact .inr ⟨src, d, hf, hd, grant_of_firstDeferred (s := s.clearSlot i) hf hd i⟩

/-! ## Occurrences -/

/-- Everything an occurrence can do, case by case of R9. -/
theorem occurrence_cases (s : State) (src : SourceId) (p : BitVec 16) :
    ((s.config src).level = 0 ∧ s.occurrence src p = s)
    ∨ ((s.config src).level ≠ 0 ∧ SourceId.posted src = true
        ∧ ((∃ i, s.lowestFree = some i ∧ s.occurrence src p = s.createTicket i src 1 s.timebase (some p))
          ∨ (s.lowestFree = none ∧ s.occurrence src p = s)))
    ∨ ((s.config src).level ≠ 0 ∧ SourceId.posted src = false
        ∧ ((∃ i, s.waitingTicket src = some i ∧ s.occurrence src p = s.coalesce i)
          ∨ (s.waitingTicket src = none
            ∧ ((∃ d, s.deferralOf src = some d
                  ∧ s.occurrence src p = s.setDeferral src (some { d with count := saturate (d.count + 1) }))
              ∨ (s.deferralOf src = none
                ∧ ((∃ i, s.lowestFree = some i ∧ s.occurrence src p = s.createTicket i src 1 s.timebase none)
                  ∨ (s.lowestFree = none
                    ∧ s.occurrence src p = s.setDeferral src (some { count := 1, stamp := s.timebase })))))))) := by
  unfold State.occurrence State.occurrenceCase
  by_cases hl : (s.config src).level = 0
  · simp [hl]
  · simp only [hl, if_false, false_and, false_or, ne_eq, not_false_iff, true_and]
    by_cases hp : SourceId.posted src = true
    · simp only [hp, if_true]
      cases s.lowestFree <;> simp
    · simp only [hp]
      cases s.waitingTicket src with
      | some i => simp
      | none =>
        cases s.deferralOf src with
        | some d => simp
        | none => cases s.lowestFree <;> simp

/-- An occurrence of a disabled source is discarded (case 1 of R9). -/
theorem occurrence_of_disabled {s : State} {src : SourceId} (h : (s.config src).level = 0) (p : BitVec 16) :
    s.occurrence src p = s := by
  simp [State.occurrence, State.occurrenceCase, h]

/-- A source with a ticket of its own that a test finds is not re-armed (R73). -/
theorem rearm_of_live {s : State} {src : SourceId} (h : s.liveCount src ≠ 0) : s.rearm src = s := by
  simp [State.rearm, h]

/-- A source without a cause is not re-armed (R73, R74). -/
theorem rearm_of_noCause {s : State} {src : SourceId} (h : s.NoCause src) : s.rearm src = s := by
  unfold State.rearm
  rw [h.1]
  by_cases hf : src = faultSource
  · simp [hf, h.2 hf]
  · simp [hf]

end Sys2Proof.Machine
end

