-- ==== Sys2Proof/Laws/Faults.lean ====
section
/-! SUPPORT. What the operations that may append a fault record can do: each changes the pool and the fault
queue alone. -/

namespace Sys2Proof.Machine

/-- From s to t nothing changes but the pool and the fault queue. -/
def OnlyPoolFaults (s t : State) : Prop := t = { s with pool := t.pool, faults := t.faults }

theorem OnlyPoolFaults.refl (s : State) : OnlyPoolFaults s s := rfl

theorem OnlyPoolFaults.trans {s t u : State} (h1 : OnlyPoolFaults s t) (h2 : OnlyPoolFaults t u) :
    OnlyPoolFaults s u := by
  unfold OnlyPoolFaults at *; rw [h2, h1]

theorem OnlyPool.poolFaults {s t : State} (h : OnlyPool s t) : OnlyPoolFaults s t := by
  unfold OnlyPoolFaults; rw [h]; rfl

theorem OnlyPoolFaults.foldl {α : Type} {f : State → α → State} (hf : ∀ s a, OnlyPoolFaults s (f s a))
    (l : List α) (s : State) : OnlyPoolFaults s (l.foldl f s) := by
  induction l generalizing s with
  | nil => exact .refl s
  | cons a l ih => exact (hf s a).trans (ih _)

section
variable {s t : State} (h : OnlyPoolFaults s t)
include h

theorem OnlyPoolFaults.timebase : t.timebase = s.timebase := by rw [h]
theorem OnlyPoolFaults.sources : t.sources = s.sources := by rw [h]
theorem OnlyPoolFaults.faultLevel : t.faultLevel = s.faultLevel := by rw [h]
theorem OnlyPoolFaults.lines : t.lines = s.lines := by rw [h]
theorem OnlyPoolFaults.ports : t.ports = s.ports := by rw [h]
theorem OnlyPoolFaults.timers : t.timers = s.timers := by rw [h]
theorem OnlyPoolFaults.token : t.token = s.token := by rw [h]
theorem OnlyPoolFaults.pending : t.pending = s.pending := by rw [h]
theorem OnlyPoolFaults.port (g : Port) : t.port g = s.port g := by rw [h]; rfl
theorem OnlyPoolFaults.config (src : SourceId) : t.config src = s.config src := by rw [h]; rfl

end

theorem appendFault_onlyPoolFaults (s : State) (r : FaultRecord) : OnlyPoolFaults s (s.appendFault r) :=
  OnlyPoolFaults.trans (t := { s with faults := _ }) rfl (occurrence_onlyPool _ faultSource 0).poolFaults

/-- The append of a record, as R127 has it. -/
@[simp] theorem appendFault_faults (s : State) (r : FaultRecord) :
    (s.appendFault r).faults = s.faults.appended r := by
  unfold State.appendFault
  rw [(occurrence_onlyPool _ _ _).faults]
  rfl

/-- While source 48 is disabled an append leaves the pool as it is. -/
theorem appendFault_pool_of_disabled {s : State} (h : s.faultLevel = 0) (r : FaultRecord) :
    (s.appendFault r).pool = s.pool := by
  unfold State.appendFault
  rw [occurrence_of_disabled]
  simpa [State.config, faultSource, State.faultRecordOf] using h

theorem lapseSingle_onlyPoolFaults (s : State) (i : SlotId) (u : Ticket) :
    OnlyPoolFaults s (s.lapseSingle i u) := by
  unfold State.lapseSingle
  split
  · exact (freeTicket_onlyPool s i).poolFaults.trans (appendFault_onlyPoolFaults _ _)
  · exact ((setTicket_onlyPool s i _).trans (returnTicket_onlyPool _ i)).poolFaults

theorem lapseShare_onlyPoolFaults (s : State) (h : Port) (i : SlotId) (u : Ticket) :
    OnlyPoolFaults s (s.lapseShare h i u) :=
  (leaveRound_onlyPool s h i).poolFaults.trans (appendFault_onlyPoolFaults _ _)

theorem lapseTicket_onlyPoolFaults (s : State) (h : Port) (hd : Handle) :
    OnlyPoolFaults s (s.lapseTicket h hd) := by
  unfold State.lapseTicket
  split
  · rfl
  · split
    · exact lapseSingle_onlyPoolFaults _ _ _
    · exact lapseShare_onlyPoolFaults _ _ _ _
    · rfl

theorem collect_onlyPoolFaults (s : State) (i : SlotId) : OnlyPoolFaults s (s.collect i) := by
  unfold State.collect
  split
  · rfl
  · split
    · refine OnlyPoolFaults.trans (t := if _ then _ else _) ?_
        (OnlyPoolFaults.foldl (fun s _ => appendFault_onlyPoolFaults s _) _ _)
      split
      · exact (settle_onlyPool s i _).poolFaults
      · rfl
    · rfl

/-- Everything the lapse of the ticket of an entry can do: the handle names nothing, or the ticket waits;
it is HELD and lapses as a SINGLE ticket; or it is SPREAD and a share lapses (R80). -/
theorem lapseTicket_cases (s : State) (h : Port) (hd : Handle) :
    ((s.named hd = none ∨ ∃ u, s.named hd = some u ∧ u.standing = .waiting) ∧ s.lapseTicket h hd = s)
    ∨ (∃ u g, s.named hd = some u ∧ u.standing = .held g ∧ s.lapseTicket h hd = s.lapseSingle hd.slot u)
    ∨ ∃ u o c x, s.named hd = some u ∧ u.standing = .spread o c x
        ∧ s.lapseTicket h hd = s.lapseShare h hd.slot u := by
  unfold State.lapseTicket
  cases hn : s.named hd with
  | none => simp
  | some u => cases hs : u.standing <;> simp [hs]

/-- A lapse at the retry limit abandons the ticket (R81, R82). -/
theorem lapseSingle_of_limit {s : State} {i : SlotId} {u : Ticket} (h : u.retryLimit.val ≤ u.lapses + 1) :
    s.lapseSingle i u =
      (s.freeTicket i).appendFault (.abandoned u.source (s.handleOf i) (u.lapses + 1) s.timebase) := by
  simp [State.lapseSingle, h]

/-- A lapse below the retry limit returns the ticket with the lapse counted (R81). -/
theorem lapseSingle_of_below {s : State} {i : SlotId} {u : Ticket} (h : u.lapses + 1 < u.retryLimit.val) :
    s.lapseSingle i u = (s.setTicket i { u with lapses := u.lapses + 1 }).returnTicket i := by
  simp [State.lapseSingle, Nat.not_le.2 h]

/-- Everything the return of a ticket can do, case by case of R83. -/
theorem returnTicket_cases {s : State} {i : SlotId} {u : Ticket} (hu : s.ticketAt i = some u) :
    (s.conditionGone u.source = true ∧ s.returnTicket i = s.freeTicket i)
    ∨ (s.conditionGone u.source = false
      ∧ ((∃ w, s.mergeTarget u.source = some w ∧ s.returnTicket i = s.mergeInto i w)
        ∨ (s.mergeTarget u.source = none
          ∧ ((∃ d, s.deferralOf u.source = some d ∧ s.returnTicket i =
                (s.setTicket i { u with standing := .waiting, count := saturate (u.count + d.count) }).setDeferral
                  u.source none)
            ∨ (s.deferralOf u.source = none
              ∧ s.returnTicket i = s.setTicket i { u with standing := .waiting }))))) := by
  unfold State.returnTicket
  rw [hu]
  cases hc : s.conditionGone u.source with
  | true => simp [hc]
  | false =>
    cases hm : s.mergeTarget u.source with
    | some w => simp [hc, hm]
    | none => cases hd : s.deferralOf u.source <;> simp [hc, hm, hd]

/-- Everything the leaving of a round can do: nothing where no round stands in the slot; the ticket settles
when the host was the last one owed; and otherwise the sets close up (R70). -/
theorem leaveRound_cases (s : State) (h : Port) (i : SlotId) :
    ((∀ u ∈ s.ticketAt i, u.inRound = false) ∧ s.leaveRound h i = s)
    ∨ ∃ u o c x, s.ticketAt i = some u ∧ u.standing = .spread o c x
        ∧ ((HostSet.without o h = 0 ∧ s.leaveRound h i = s.settle i u.source)
          ∨ (HostSet.without o h ≠ 0 ∧ s.leaveRound h i = s.setTicket i
              { u with standing := .spread (HostSet.without o h) (HostSet.without c h) x })) := by
  unfold State.leaveRound
  cases ht : s.ticketAt i with
  | none => simp
  | some u =>
    cases hs : u.standing with
    | waiting => left; simp [hs, Ticket.inRound]
    | held g => left; simp [hs, Ticket.inRound]
    | spread o c x =>
      right
      refine ⟨u, o, c, x, rfl, hs, ?_⟩
      simp only [hs]
      by_cases h0 : HostSet.without o h = 0
      · exact .inl ⟨h0, by simp [h0]⟩
      · exact .inr ⟨h0, if_neg h0⟩

end Sys2Proof.Machine
end

