-- ==== Sys2Proof/Laws/Hosts.lean ====
section
/-! SUPPORT. What the making of a response and the recomputation of the offers do. -/

namespace Sys2Proof.Machine

/-! ## Offers -/

/-- An offer reads the pool, the token, and three fields of its own port. -/
theorem offer_congr {s t : State} {h : Port} (hp : t.pool = s.pool) (ht : t.token = s.token)
    (h1 : (t.port h).state = (s.port h).state) (h2 : (t.port h).threshold = (s.port h).threshold)
    (h3 : (t.port h).stack = (s.port h).stack) : t.offer h = s.offer h := by
  have hta : ∀ i, t.ticketAt i = s.ticketAt i := fun i => by
    unfold State.ticketAt State.slotAt; rw [hp]
  have hpa : ∀ l, t.pendingAt l = s.pendingAt l := fun l => by
    funext i; unfold State.pendingAt; rw [hta]
  have hpo : t.pendingOrder = s.pendingOrder := by
    unfold State.pendingOrder; rw [hp]; simp only [hpa]
  have hor : ∀ i src, t.otherRound i src = s.otherRound i src := fun i src => by
    unfold State.otherRound; rw [hp]; simp only [hta]
  have hel : ∀ u, t.entitled h u = s.entitled h u := fun u => by
    unfold State.entitled State.eligibleFor State.tokenSet; rw [ht]
  have hsl : t.serviceLevel h = s.serviceLevel h := by
    unfold State.serviceLevel; rw [h3]
  have hc : t.candidate h = s.candidate h := by
    funext i
    unfold State.candidate State.attached
    rw [hta, h1, h2, h3, hsl]
    simp only [hel, hor]
  unfold State.offer
  rw [hpo, hc]

/-- A host with an offer is ATTACHED and has room on its stack (R40). -/
theorem offer_attached {s : State} {h : Port} {i : SlotId} (ho : s.offer h = some i) :
    s.candidate h i = true ∧ s.attached h = true ∧ (s.port h).stack.length < Config.stackDepth := by
  have hc := List.find?_some ho
  refine ⟨hc, ?_⟩
  unfold State.candidate at hc
  split at hc
  · simp at hc
  · simp only [Bool.and_eq_true, decide_eq_true_eq] at hc
    exact ⟨hc.1.1.1.1.1, hc.1.1.2⟩

/-! ## Responses -/

/-- The bytes that a response's data holds. -/
@[simp] theorem look_dataBytes (d : List Byte) (k : Fin 12) : look (dataBytes d) k = d.getD k.val 0 := by
  simp [dataBytes]

@[simp] theorem answer_offer (s : State) (h g : Port) (tag : Byte) (st : Status) (d : List Byte) :
    (s.answer h tag st d).offer g = s.offer g := by
  refine offer_congr (s := s) rfl rfl ?_ ?_ ?_ <;> rw [State.answer_port] <;> split <;> simp_all

@[simp] theorem answer_portFlags (s : State) (h g : Port) (tag : Byte) (st : Status) (d : List Byte) :
    (s.answer h tag st d).portFlags g = s.portFlags g := by
  unfold State.portFlags State.attached
  rw [answer_offer, State.answer_port]
  split <;> simp_all

@[simp] theorem answer_ticketAt (s : State) (h : Port) (tag : Byte) (st : Status) (d : List Byte) (i : SlotId) :
    (s.answer h tag st d).ticketAt i = s.ticketAt i := rfl

@[simp] theorem answer_slotAt (s : State) (h : Port) (tag : Byte) (st : Status) (d : List Byte) (i : SlotId) :
    (s.answer h tag st d).slotAt i = s.slotAt i := rfl

@[simp] theorem answer_timer (s : State) (h : Port) (tag : Byte) (st : Status) (d : List Byte) (n : TimerId) :
    (s.answer h tag st d).timer n = s.timer n := rfl

@[simp] theorem answer_deferralOf (s : State) (h : Port) (tag : Byte) (st : Status) (d : List Byte)
    (src : SourceId) : (s.answer h tag st d).deferralOf src = s.deferralOf src := rfl

/-- The response slot after an answer. -/
@[simp] theorem answer_slot (s : State) (h : Port) (tag : Byte) (st : Status) (d : List Byte) :
    ((s.answer h tag st d).port h).link.slot = makeResponse st tag d (s.portFlags h) := by
  rw [State.answer_port]; simp

/-- The check byte of a response is that of its first 15 bytes (R133). -/
theorem makeResponse_check (st : Status) (tag : Byte) (d : List Byte) (f : PortFlags) :
    (makeResponse st tag d f).check = checkByte ((makeResponse st tag d f).bytes.take 15) := by
  have hl : (responseBody st tag (dataBytes d) f).length = 15 := by simp [responseBody]
  simp only [makeResponse, Response.bytes]
  rw [List.take_left' hl]

/-- An answer leaves the response that it names. -/
theorem answered_answer (s : State) (h : Port) (tag : Byte) (st : Status) (d : List Byte) :
    (s.answer h tag st d).Answered h tag st d := by
  refine ⟨?_, ?_, ?_, ?_, ?_⟩ <;> rw [answer_slot]
  · rfl
  · rfl
  · intro k; exact look_dataBytes d k
  · rw [answer_portFlags]; rfl
  · exact makeResponse_check st tag d _

/-- An answer changes the response slot alone. -/
theorem onlyAnswers_answer (s : State) (h : Port) (tag : Byte) (st : Status) (d : List Byte) :
    OnlyAnswers s (s.answer h tag st d) h := by
  unfold OnlyAnswers
  rw [answer_slot]
  rfl

/-! ## Recomputation -/

/-- A port after the recomputation of the offers. -/
@[simp] theorem recompute_port (s : State) (g : Port) :
    s.recompute.port g = { s.port g with attn := (s.offer g).isSome } := by
  simp [State.recompute, State.port]

@[simp] theorem recompute_offer (s : State) (g : Port) : s.recompute.offer g = s.offer g := by
  refine offer_congr (s := s) rfl rfl ?_ ?_ ?_ <;> rw [recompute_port]

@[simp] theorem recompute_pool (s : State) : s.recompute.pool = s.pool := rfl
@[simp] theorem recompute_timebase (s : State) : s.recompute.timebase = s.timebase := rfl
@[simp] theorem recompute_sources (s : State) : s.recompute.sources = s.sources := rfl
@[simp] theorem recompute_faultLevel (s : State) : s.recompute.faultLevel = s.faultLevel := rfl
@[simp] theorem recompute_lines (s : State) : s.recompute.lines = s.lines := rfl
@[simp] theorem recompute_timers (s : State) : s.recompute.timers = s.timers := rfl
@[simp] theorem recompute_token (s : State) : s.recompute.token = s.token := rfl
@[simp] theorem recompute_faults (s : State) : s.recompute.faults = s.faults := rfl
@[simp] theorem recompute_pending (s : State) : s.recompute.pending = s.pending := rfl

/-- A command that has port h become p, recomputes the offers and answers, leaves the ports so. -/
theorem portsBecome_of {s u : State} {h : Port} {p : HostPort} (tag : Byte) (st : Status) (d : List Byte)
    (hu : ∀ g, u.port g = if g = h then p else s.port g) (hl : p.link = (s.port h).link) :
    PortsBecome s (u.recompute.answer h tag st d) h p := by
  intro g
  rw [answer_slot, answer_offer, recompute_offer, State.answer_port]
  by_cases hg : g = h
  · subst hg
    simp only [if_true, recompute_port, hu, hl]
  · simp only [hg, if_false, recompute_port, hu]

/-! ## Sets of hosts -/

/-- Membership in the set of one host. -/
@[simp] theorem has_only (h g : Port) : HostSet.has (HostSet.only h) g = decide (g = h) := by
  revert h g; decide

/-- Membership after a host is added. -/
@[simp] theorem has_add (S : HostSet) (h g : Port) :
    HostSet.has (HostSet.add S h) g = (HostSet.has S g || decide (g = h)) := by
  revert S h g; decide

/-- Membership after a host is taken out. -/
@[simp] theorem has_without (S : HostSet) (h g : Port) :
    HostSet.has (HostSet.without S h) g = (HostSet.has S g && !decide (g = h)) := by
  revert S h g; decide

/-- Two sets of hosts with the same members are equal. -/
theorem hostSet_ext {S T : HostSet} (h : ∀ g : Port, HostSet.has S g = HostSet.has T g) : S = T := by
  revert S T; decide

end Sys2Proof.Machine
end

