-- ==== Sys2Proof/Laws/PerInstr.lean ====
section
/-! SUPPORT. One statement about every row as syntax, with one lemma for each constructor. -/

namespace Sys2Proof.Laws.WireForm

/-- A row that is a host command is the row of the command of the link it carries, at the port and with the
tag it names; and that command's argument bytes fit the thirteen of a transaction (R143, R145). -/
def Statement (i : Instr) : Prop :=
  match i.command with
  | none => True
  | some (h, tag, c) => c.toInstr h tag = i ∧ c.argBytes.length ≤ 13

theorem deviceReset :
    Statement .deviceReset := trivial

theorem transactionEnd (h : Port) (sdi : List Bool) :
    Statement (.transactionEnd h sdi) := trivial

theorem nop (h : Port) (tag : Byte) :
    Statement (.nop h tag) := ⟨rfl, Nat.le_of_ble_eq_true rfl⟩

theorem attach (h : Port) (tag : Byte) :
    Statement (.attach h tag) := ⟨rfl, Nat.le_of_ble_eq_true rfl⟩

theorem detach (h : Port) (tag : Byte) :
    Statement (.detach h tag) := ⟨rfl, Nat.le_of_ble_eq_true rfl⟩

theorem status (h : Port) (tag : Byte) :
    Statement (.status h tag) := ⟨rfl, Nat.le_of_ble_eq_true rfl⟩

theorem time (h : Port) (tag : Byte) :
    Statement (.time h tag) := ⟨rfl, Nat.le_of_ble_eq_true rfl⟩

theorem lines (h : Port) (tag : Byte) :
    Statement (.lines h tag) := ⟨rfl, Nat.le_of_ble_eq_true rfl⟩

theorem peek (h : Port) (tag : Byte) :
    Statement (.peek h tag) := ⟨rfl, Nat.le_of_ble_eq_true rfl⟩

theorem claim (h : Port) (tag : Byte) :
    Statement (.claim h tag) := ⟨rfl, Nat.le_of_ble_eq_true rfl⟩

theorem claimHandle (h : Port) (tag : Byte) (word : BitVec 16) :
    Statement (.claimHandle h tag word) := ⟨rfl, Nat.le_of_ble_eq_true rfl⟩

theorem retire (h : Port) (tag : Byte) (word : BitVec 16) :
    Statement (.retire h tag word) := ⟨rfl, Nat.le_of_ble_eq_true rfl⟩

theorem extend (h : Port) (tag : Byte) (word : BitVec 16) :
    Statement (.extend h tag word) := ⟨rfl, Nat.le_of_ble_eq_true rfl⟩

theorem threshold (h : Port) (tag : Byte) (value : Byte) :
    Statement (.threshold h tag value) := ⟨rfl, Nat.le_of_ble_eq_true rfl⟩

theorem post (h : Port) (tag : Byte) (source : Byte) (payload : BitVec 16) :
    Statement (.post h tag source payload) := ⟨rfl, Nat.le_of_ble_eq_true rfl⟩

theorem timerSetup (h : Port) (tag : Byte) (timer mode prescale : Byte) (reload : BitVec 16) (gate chain : Byte) :
    Statement (.timerSetup h tag timer mode prescale reload gate chain) := ⟨rfl, Nat.le_of_ble_eq_true rfl⟩

theorem timerStart (h : Port) (tag : Byte) (timer : Byte) :
    Statement (.timerStart h tag timer) := ⟨rfl, Nat.le_of_ble_eq_true rfl⟩

theorem timerStop (h : Port) (tag : Byte) (timer : Byte) :
    Statement (.timerStop h tag timer) := ⟨rfl, Nat.le_of_ble_eq_true rfl⟩

theorem timerLoad (h : Port) (tag : Byte) (timer : Byte) (reload : BitVec 16) :
    Statement (.timerLoad h tag timer reload) := ⟨rfl, Nat.le_of_ble_eq_true rfl⟩

theorem timerRead (h : Port) (tag : Byte) (timer : Byte) :
    Statement (.timerRead h tag timer) := ⟨rfl, Nat.le_of_ble_eq_true rfl⟩

theorem take (h : Port) (tag : Byte) :
    Statement (.take h tag) := ⟨rfl, Nat.le_of_ble_eq_true rfl⟩

theorem handover (h : Port) (tag : Byte) (target : Byte) :
    Statement (.handover h tag target) := ⟨rfl, Nat.le_of_ble_eq_true rfl⟩

theorem eject (h : Port) (tag : Byte) (target : Byte) :
    Statement (.eject h tag target) := ⟨rfl, Nat.le_of_ble_eq_true rfl⟩

theorem sourceSet (h : Port) (tag : Byte) (source : Byte) (config : Vector Byte 9) :
    Statement (.sourceSet h tag source config) := ⟨rfl, by simp [Command.argBytes]⟩

theorem sourceRead (h : Port) (tag : Byte) (source : Byte) :
    Statement (.sourceRead h tag source) := ⟨rfl, Nat.le_of_ble_eq_true rfl⟩

theorem flush (h : Port) (tag : Byte) :
    Statement (.flush h tag) := ⟨rfl, Nat.le_of_ble_eq_true rfl⟩

theorem faultRead (h : Port) (tag : Byte) :
    Statement (.faultRead h tag) := ⟨rfl, Nat.le_of_ble_eq_true rfl⟩

theorem trigger (h : Port) (tag : Byte) (source : Byte) :
    Statement (.trigger h tag source) := ⟨rfl, Nat.le_of_ble_eq_true rfl⟩

theorem timebaseAdvance (pins : BitVec 32) (order held : List AdvanceEvent) :
    Statement (.timebaseAdvance pins order held) := trivial

theorem timerExpiry (n : TimerId) (chainOrder : List TimerId) :
    Statement (.timerExpiry n chainOrder) := trivial

theorem serviceExpiry (h : Port) (entry : Fin 4) :
    Statement (.serviceExpiry h entry) := trivial

theorem collectionExpiry (slot : SlotId) :
    Statement (.collectionExpiry slot) := trivial

theorem affinityExpiry (slot : SlotId) :
    Statement (.affinityExpiry slot) := trivial

theorem selectFall (h : Port) :
    Statement (.selectFall h) := trivial

end Sys2Proof.Laws.WireForm
end

