-- ==== Sys2Proof/Laws/Timers.lean ====
section
/-! SUPPORT. What the steps and expiries of the Timer Bank leave as it is. -/

namespace Sys2Proof.Machine

/-- Two banks agree in everything that a step cannot change: the configuration of each timer (R109, R111). -/
def SameSetup (a b : Vector Timer 8) : Prop :=
  ∀ m : TimerId, (look a m).mode = (look b m).mode ∧ (look a m).prescale = (look b m).prescale
    ∧ (look a m).reload = (look b m).reload ∧ (look a m).gate = (look b m).gate
    ∧ (look a m).chain = (look b m).chain

theorem SameSetup.refl (a : Vector Timer 8) : SameSetup a a := fun _ => ⟨rfl, rfl, rfl, rfl, rfl⟩

theorem SameSetup.trans {a b c : Vector Timer 8} (h1 : SameSetup a b) (h2 : SameSetup b c) : SameSetup a c :=
  fun m => by
    obtain ⟨x1, x2, x3, x4, x5⟩ := h1 m
    obtain ⟨y1, y2, y3, y4, y5⟩ := h2 m
    exact ⟨x1.trans y1, x2.trans y2, x3.trans y3, x4.trans y4, x5.trans y5⟩

/-- A record written with the setup that stands there leaves the bank's setup. -/
theorem SameSetup.place {a : Vector Timer 8} {n : TimerId} {t : Timer} (h1 : t.mode = (look a n).mode)
    (h2 : t.prescale = (look a n).prescale) (h3 : t.reload = (look a n).reload)
    (h4 : t.gate = (look a n).gate) (h5 : t.chain = (look a n).chain) : SameSetup (place a n t) a := fun m => by
  rw [look_place]
  split
  · rename_i e; subst e; exact ⟨h1, h2, h3, h4, h5⟩
  · exact ⟨rfl, rfl, rfl, rfl, rfl⟩

/-- An expiry leaves a timer's setup. -/
theorem afterExpiry_setup (t : Timer) :
    t.afterExpiry.mode = t.mode ∧ t.afterExpiry.prescale = t.prescale ∧ t.afterExpiry.reload = t.reload
      ∧ t.afterExpiry.gate = t.gate ∧ t.afterExpiry.chain = t.chain := by
  unfold Timer.afterExpiry
  split <;> exact ⟨rfl, rfl, rfl, rfl, rfl⟩

/-- A step, with everything that follows it in its event, leaves every timer's setup. -/
theorem stepBank_setup (depth : Nat) (n : TimerId) (ts : Vector Timer 8) :
    SameSetup (stepBank depth n ts).1 ts := by
  induction depth generalizing n ts with
  | zero => exact .refl ts
  | succ d ih =>
    unfold stepBank
    have hp : SameSetup (place ts n { look ts n with count := (look ts n).count - 1, stepDue := false }) ts :=
      .place rfl rfl rfl rfl rfl
    by_cases hc : (look ts n).count - 1 = 0
    · have hfold : ∀ (l : List TimerId) (acc : Vector Timer 8 × List TimerId), SameSetup acc.1 ts →
          SameSetup (l.foldl (fun (acc : Vector Timer 8 × List TimerId) m =>
            ((stepBank d m acc.1).1, acc.2 ++ (stepBank d m acc.1).2)) acc).1 ts := by
        intro l
        induction l with
        | nil => exact fun _ h => h
        | cons m l ihl => exact fun acc h => ihl _ ((ih m acc.1).trans h)
      dsimp only
      rw [if_neg (by simpa using hc)]
      refine SameSetup.trans ?_ (hfold (chainedTo ts n) (_, []) hp)
      have := afterExpiry_setup (look ((chainedTo ts n).foldl
        (fun (acc : Vector Timer 8 × List TimerId) m =>
          ((stepBank d m acc.1).1, acc.2 ++ (stepBank d m acc.1).2))
        (place ts n { look ts n with count := (look ts n).count - 1, stepDue := false }, [])).1 n)
      exact .place this.1 this.2.1 this.2.2.1 this.2.2.2.1 this.2.2.2.2
    · dsimp only
      rw [if_pos (by simpa using hc)]
      exact hp

/-- A due step changes the pool and the timers alone. -/
theorem stepTimer_frame (s : State) (n : TimerId) (chainOrder : List TimerId) :
    s.stepTimer n chainOrder = { s with
      pool := (s.stepTimer n chainOrder).pool, timers := (s.stepTimer n chainOrder).timers } := by
  unfold State.stepTimer
  split
  · have h := OnlyPool.foldl (fun st m => occurrence_onlyPool st (timerSource m) 0)
      (preferring chainOrder (stepBank 8 n s.timers).2) { s with timers := (stepBank 8 n s.timers).1 }
    rw [h]
    rfl
  · rfl

/-- The timers after a due step: the bank's step, or none where the gate is closed. -/
theorem stepTimer_timers (s : State) (n : TimerId) (chainOrder : List TimerId) :
    (s.stepTimer n chainOrder).timers =
      if s.gateOpen (s.timer n) then (stepBank 8 n s.timers).1
      else place s.timers n { s.timer n with stepDue := false } := by
  unfold State.stepTimer
  split
  · have h := OnlyPool.foldl (fun st m => occurrence_onlyPool st (timerSource m) 0)
      (preferring chainOrder (stepBank 8 n s.timers).2) { s with timers := (stepBank 8 n s.timers).1 }
    exact h.timers
  · rfl

end Sys2Proof.Machine
end

