-- ==== Sys2Proof/Laws/Wire.lean ====
section
/-! SUPPORT. What the argument fields and the data layouts of the wire stand for, as numbers. -/

namespace Sys2Proof.Machine

/-- A port byte names the port of its value (R144). -/
theorem portOfByte_eq_some {b : Byte} {p : Port} : portOfByte b = some p ↔ b.toNat = p.val := by
  unfold portOfByte
  have := p.isLt
  split
  · simp [Fin.ext_iff]
  · simp only [reduceCtorEq, false_iff]; omega

/-- A port byte above 3 names no port. -/
theorem portOfByte_eq_none {b : Byte} : portOfByte b = none ↔ 3 < b.toNat := by
  unfold portOfByte
  split
  · simp; omega
  · simp; omega

/-- A source byte names the source of its value. -/
theorem sourceOfByte_eq_some {b : Byte} {src : SourceId} : sourceOfByte b = some src ↔ b.toNat = src.val := by
  unfold sourceOfByte
  have := src.isLt
  split
  · simp [Fin.ext_iff]
  · simp only [reduceCtorEq, false_iff]; omega

/-- A source byte above 48 names no source. -/
theorem sourceOfByte_eq_none {b : Byte} : sourceOfByte b = none ↔ 48 < b.toNat := by
  unfold sourceOfByte
  split
  · simp; omega
  · simp; omega

/-- A timer byte names the timer of its value. -/
theorem timerOfByte_eq_some {b : Byte} {n : TimerId} : timerOfByte b = some n ↔ b.toNat = n.val := by
  unfold timerOfByte
  have := n.isLt
  split
  · simp [Fin.ext_iff]
  · simp only [reduceCtorEq, false_iff]; omega

/-- A timer byte above 7 names no timer. -/
theorem timerOfByte_eq_none {b : Byte} : timerOfByte b = none ↔ 7 < b.toNat := by
  unfold timerOfByte
  split
  · simp; omega
  · simp; omega

/-- A threshold byte names the level of its value. -/
theorem levelOfByte_eq_some {b : Byte} {l : Fin 16} : levelOfByte b = some l ↔ b.toNat = l.val := by
  unfold levelOfByte
  have := l.isLt
  split
  · simp [Fin.ext_iff]
  · simp only [reduceCtorEq, false_iff]; omega

/-- A threshold byte above 15 is out of range. -/
theorem levelOfByte_eq_none {b : Byte} : levelOfByte b = none ↔ 15 < b.toNat := by
  unfold levelOfByte
  split
  · simp; omega
  · simp; omega

/-- A handle-and-source word as a number (R144). -/
theorem handleWord_toNat (hd : Handle) {low : Nat} (h : low < 64) :
    (handleWord hd low).toNat = wireWord hd low := by
  have h1 := hd.slot.isLt
  have h2 := hd.generation.isLt
  unfold handleWord wireWord
  rw [BitVec.toNat_append, BitVec.toNat_append]
  simp only [BitVec.toNat_ofNat]
  rw [Nat.mod_eq_of_lt (by omega : hd.slot.val < 2 ^ 6), Nat.mod_eq_of_lt (by omega : hd.generation.val < 2 ^ 4),
    Nat.mod_eq_of_lt (by omega : low < 2 ^ 6)]
  rw [← Nat.shiftLeft_add_eq_or_of_lt (by omega : hd.generation.val < 2 ^ 4),
    ← Nat.shiftLeft_add_eq_or_of_lt (by omega : low < 2 ^ 6)]
  simp only [Nat.shiftLeft_eq]
  ring

/-- The two bytes of a 16-bit field, as numbers (R143). -/
theorem wordBytes_eq (w : BitVec 16) : wordBytes w = bytesOf16 w.toNat := by
  unfold wordBytes bytesOf16 highByte lowByte
  congr 1
  apply BitVec.eq_of_toNat_eq
  simp [BitVec.extractLsb'_toNat, Nat.shiftRight_eq_div_pow]

/-- The two bytes of a handle-and-source word, as numbers (R144). -/
theorem wordBytes_handleWord (hd : Handle) {low : Nat} (h : low < 64) :
    wordBytes (handleWord hd low) = bytesOf16 (wireWord hd low) := by
  rw [wordBytes_eq, handleWord_toNat hd h]

/-- One byte of a timebase value, as a number (R143). -/
theorem timeByte_eq (t : Time) (n : Nat) : t.extractLsb' n 8 = BitVec.ofNat 8 (t.toNat / 2 ^ n) := by
  apply BitVec.eq_of_toNat_eq
  simp [BitVec.extractLsb'_toNat, Nat.shiftRight_eq_div_pow]

/-- The six bytes of a timebase value, as numbers (R143). -/
theorem timeBytes_eq (t : Time) : timeBytes t = bytesOf48 t := by
  simp only [timeBytes, timeByte_eq]
  rfl

end Sys2Proof.Machine
end

