-- ==== Sys2Proof/WellFormed.lean ====
section
/-! DEFINITION. Which rows are well formed. The operand types already bound ports, slots, timers and
bytes; what is left are the order operands, the model's own (log 6). -/

namespace Sys2Proof

/-- No event is named twice. -/
def AdvanceEvent.distinct (es : List AdvanceEvent) : Bool := decide es.Nodup

/-- An expiry can be held for a row of its own; the sample of a line cannot (log 7). -/
def AdvanceEvent.canBeHeld : AdvanceEvent → Bool
  | .line _ => false
  | .timer _ => true
  | .service _ _ => true
  | .collection _ => true
  | .affinity _ => true

/-- A row whose order operands name no event twice and hold no sample. -/
def Instr.wellFormed (i : Instr) : Bool :=
  match i with
  | .timebaseAdvance _ order held =>
    AdvanceEvent.distinct order && AdvanceEvent.distinct held && held.all AdvanceEvent.canBeHeld
  | .timerExpiry _ chainOrder => decide chainOrder.Nodup
  | .deviceReset => true
  | .transactionEnd _ _ => true
  | .nop _ _ => true
  | .attach _ _ => true
  | .detach _ _ => true
  | .status _ _ => true
  | .time _ _ => true
  | .lines _ _ => true
  | .peek _ _ => true
  | .claim _ _ => true
  | .claimHandle _ _ _ => true
  | .retire _ _ _ => true
  | .extend _ _ _ => true
  | .threshold _ _ _ => true
  | .post _ _ _ _ => true
  | .timerSetup _ _ _ _ _ _ _ _ => true
  | .timerStart _ _ _ => true
  | .timerStop _ _ _ => true
  | .timerLoad _ _ _ _ => true
  | .timerRead _ _ _ => true
  | .take _ _ => true
  | .handover _ _ _ => true
  | .eject _ _ _ => true
  | .sourceSet _ _ _ _ => true
  | .sourceRead _ _ _ => true
  | .flush _ _ => true
  | .faultRead _ _ => true
  | .trigger _ _ _ => true
  | .serviceExpiry _ _ => true
  | .collectionExpiry _ => true
  | .affinityExpiry _ => true
  | .selectFall _ => true

end Sys2Proof
end

