-- ==== Sys2Proof/Tests/Slice0.lean ====
section
/-! SUPPORT. Tests whose expected results are the spec's own, and for every statement with premises a witness:
a state and operands that meet them, clause by clause at the ends of their ranges. -/

namespace Sys2Proof.Tests

open Sys2Proof.Machine

-- One test at a time: together their threads ask for more memory than the check allows.
set_option Elab.async false

/-! ## Small states -/

/-- A step answers a next state that meets a test. -/
def after (o : Host.Outcome State Fault Refusal) (p : State → Bool) : Bool :=
  match o with
  | .next t => p t
  | .fault _ => false
  | .refused _ => false

theorem next_of_after {o : Host.Outcome State Fault Refusal} {p : State → Bool} (h : after o p = true) :
    ∃ t : State, o = .next t := by
  cases o with
  | next t => exact ⟨t, rfl⟩
  | fault f => exact (Bool.noConfusion h)
  | refused r => exact (Bool.noConfusion h)

/-- Port h attached with threshold 0. -/
def joined (s : State) (h : Port) : State := s.setPort h { s.port h with state := .attached, threshold := 0 }

/-- Ports 0 and 1 attached, port 0 with the token; a CLAIM of host 1 waits in the queue. -/
def pair : State := { joined (joined State.reset 0) 1 with token := some 0, pending := [.claim 1 7] }

/-- A ticket at level 6, eligible to every host, with retry limit 3. -/
def job (src : SourceId) (policy : Policy) (standing : Standing) (limit : BitVec 12) : Ticket :=
  { source := src, level := 6, policy := policy, eligible := 0xF, serviceLimit := limit, retryLimit := 3
    reservation := none, count := 1, payload := if SourceId.posted src then some 0x0130 else none
    stamp := 40000, lapses := 0, standing := standing }

/-- A live ticket in slot i, generation 3, at the young end. -/
def keep (s : State) (i : SlotId) (t : Ticket) : State :=
  { s with pool := { s.pool with slots := place s.pool.slots i { generation := 3, ticket := some t }
                                 order := s.pool.order ++ [i] } }

/-- An entry for the ticket that `keep` puts in slot i. -/
def entry (i : SlotId) (src : SourceId) (st : EntryState) (expiry : Option Time) (extensions : Nat) : Entry :=
  { handle := { slot := i, generation := 3 }, source := src, level := 6, state := st, expiry := expiry
    extensions := extensions }

/-- The handle word of slot 5, generation 3 (R144). -/
def word53 : BitVec 16 := 0x14C0

/-- Slot 5 holds a WAITING ticket of source 42, the offer of hosts 0 and 1. -/
def offered (policy : Policy) (standing : Standing) : State := keep pair 5 (job 42 policy standing 10)

/-- Host 1 works on the ticket of a source in slot 5. -/
def busy (src : SourceId) (policy : Policy) (standing : Standing) (e : Entry) : State :=
  (keep pair 5 (job src policy standing 10)).setStack 1 [e]

/-- Host 1 holds a SINGLE ticket of source 42. -/
def holding : State := busy 42 .single (.held 1) (entry 5 42 .active (some 1000) 0)

/-- Four entries on the stack of host 1. -/
def crowded : State := pair.setStack 1 (List.replicate 4 (entry 5 42 .lapsed none 0))

/-- A source at a level, of a sense. -/
def enabled (s : State) (src : Fin 48) (level : Fin 16) (sense : Sense) : State :=
  { s with sources := place s.sources src { SourceRecord.reset with level := level, sense := sense } }

/-- The serial side of port 0 in a progress, so many advances after the last rise. -/
def linked (p : Progress) (n : Nat) : State :=
  State.reset.setPort 0
    { State.reset.port 0 with
      link := { slot := .reset, progress := p, sinceRise := n, shiftedOut := [] } }

/-- A transaction in progress at port 0 of `pair`, nothing received yet. -/
def shifting : State :=
  pair.setPort 0
    { pair.port 0 with
      link := { slot := .reset, progress := .shifting .reset [], sinceRise := 2, shiftedOut := [] } }

/-- Timer n of `pair` with a record. -/
def timed (n : TimerId) (t : Timer) : State := pair.setTimer n t

/-- A PERIODIC timer of host 1 at count 1. -/
def ticking : Timer :=
  { mode := .periodic, prescale := .by16, reload := 5, count := 1, running := true, owner := some 1, gate := none
    chain := 0, stepDue := false }

/-- Every slot live. -/
def exhausted : State :=
  { pair with
    pool :=
      { pair.pool with
        slots := Vector.replicate 64 { generation := 0, ticket := some (job 42 .single (.held 1) 0) } } }

/-! ## Well-formedness refuses what is ill formed -/

theorem test_order_names_no_event_twice :
    (Instr.timebaseAdvance 0 [.timer 1, .timer 1] []).wellFormed = false := by decide

theorem test_held_names_no_event_twice :
    (Instr.timebaseAdvance 0 [] [.affinity 3, .affinity 3]).wellFormed = false := by decide

theorem test_sample_is_not_held :
    (Instr.timebaseAdvance 0 [] [.line 0]).wellFormed = false := by decide

theorem test_chain_order_names_no_timer_twice :
    (Instr.timerExpiry 0 [2, 2]).wellFormed = false := by decide

theorem test_ordinary_advance_is_well_formed :
    (Instr.timebaseAdvance 0 [.timer 1, .line 0] [.service 1 0]).wellFormed = true := by decide

/-! ## The spec's own figures -/

/-- 10.4, the example: slot 5, generation 3, source 42 make the word 14EAh, and slot 5, generation 3 alone
the handle word 14C0h (R144). -/
theorem test_handle_words :
    handleWord { slot := 5, generation := 3 } 42 = 0x14EA
      ∧ handleOfWord 0x14C0 = some { slot := 5, generation := 3 } ∧ handleOfWord 0x14EA = none := by decide

/-- R143 by hand: status BUSY, tag 31h, flags attached, ejected notice and depth 2 make 15h, 31h and 8Ah. -/
theorem test_response_bytes :
    let flags : PortFlags :=
      { attached := true, token := false, offer := false, flushed := false, ejected := true, depth := 2 }
    (makeResponse .busy 0x31 [0xAA] flags).bytes.take 3 = [0x15, 0x31, 0xAA]
      ∧ (makeResponse .busy 0x31 [0xAA] flags).bytes.getD 14 0 = 0x8A := by
  decide +kernel

/-- R132, R143 by hand: the first bit of a transaction is bit 7 of byte 0, and the ninth bit 7 of byte 1. -/
theorem test_wire_order :
    streamByte [true] 0 = 0x80 ∧ streamByte (List.replicate 8 false ++ [true]) 1 = 0x80
      ∧ streamByte (List.replicate 15 false ++ [true]) 1 = 0x01 := by
  decide +kernel

/-- R144: TIMER_SETUP with mode 2 and prescale code 3 makes a ONESHOT timer of prescale 4096. -/
theorem test_timer_codes :
    after (exec (.timerSetup 1 2 7 2 3 1 0xFF 0) pair) (fun t =>
      (t.timer 7).mode == .oneshot && (t.timer 7).prescale.steps == 4096) = true := by
  decide +kernel

/-- R133 by hand: FFh with a bit 1 shifts to FEh; with a bit 0 it is FEh xor 07h, F9h. -/
theorem test_check_bit : checkBit 0xFF true = 0xFE ∧ checkBit 0xFF false = 0xF9 := by decide

/-- R145: the code and arguments of POST(41, 0007h) and of TIMER_LOAD(2, 10). -/
theorem test_command_bytes :
    (Command.post 41 7).code = 0x16 ∧ (Command.post 41 7).argBytes = [0x29, 0x00, 0x07]
      ∧ (Command.timerLoad 2 10).code = 0x23 ∧ (Command.timerLoad 2 10).argBytes = [0x02, 0x00, 0x0A] := by decide

/-- 10.4, the example: the response to CLAIM with tag 07h, byte by byte. -/
theorem test_claim_on_the_wire :
    after (exec (.claim 1 7) (offered .single .waiting)) (fun t =>
      (t.port 1).link.slot.bytes.take 15 ==
        [0x01, 0x07, 0x14, 0xEA, 0x60, 0x01, 0x01, 0x30, 0x00, 0x00, 0x00, 0x00, 0x9C, 0x40, 0x81]) = true := by
  decide +kernel

/-- R4, the example: filter 3, samples high, high, low, high, high, high, high; the seventh makes the change,
and not the sixth. -/
theorem test_filter_of_three :
    let s := enabled State.reset 0 0 .rising
    let s := { s with sources := place s.sources 0 { SourceRecord.reset with filter := 3 } }
    let s := s.setLine 0 { recognised := false, run := 0, sampled := true, sampleDue := true }
    let six := [true, true, false, true, true, true].foldl (fun s b => s.sampleLine 0 b) s
    (six.line 0).recognised = false ∧ (six.line 0).run = 3
      ∧ ((six.sampleLine 0 true).line 0).recognised = true := by
  decide +kernel

/-- 2.9, the example: of sources 14 (level 3), 33 and 9 (level 6), source 9 is granted the slot. -/
theorem test_grant_to_level_then_number :
    let s := enabled (enabled (enabled State.reset 14 3 .rising) 33 6 .rising) 9 6 .rising
    let s := ((s.setDeferral 14 (some ⟨1, 1200⟩)).setDeferral 33 (some ⟨4, 1350⟩)).setDeferral 9 (some ⟨2, 1410⟩)
    s.arbiter = some 9 := by
  decide +kernel

/-- R46, the example: a window of 500 from 10,000 ends at 10,500 when granted at 10,300, and is over at
10,500. -/
theorem test_window_counts_from_the_stamp :
    let r : SourceRecord := { SourceRecord.reset with level := 1, eligible := 2, preferred := some 1, window := 500 }
    { pair with timebase := 10300 }.reservationFor r 10000 = some { host := 1, expiry := 10500 }
      ∧ { pair with timebase := 10500 }.reservationFor r 10000 = none := by
  decide +kernel

/-- R76, the example: a limit of 30 extended at 50,400 runs until 53,400. -/
theorem test_extend_restarts :
    let s := (keep pair 5 (job 42 .single (.held 1) 30)).setStack 1 [entry 5 42 .active (some 53000) 0]
    after (exec (.extend 1 9 word53) { s with timebase := 50400 }) (fun t =>
      (t.port 1).stack.map Entry.expiry == [some 53400] && (t.port 1).stack.map Entry.extensions == [1]) = true := by
  decide +kernel

/-- 11, a lapse that merges: 2/0 (count 3, stamp 9,800) returns to 6/1 (count 2), which has count 5, lapse
count 1 and stamp 9,800, in the older place; slot 2 goes to the next generation. -/
theorem test_lapse_merges :
    let r : Ticket := { job 7 .single (.held 1) 10 with count := 3, stamp := 9800 }
    let w : Ticket := { job 7 .single .waiting 10 with count := 2, stamp := 10200 }
    let s := (keep (keep pair 2 r) 6 w).setStack 1 [entry 2 7 .active (some 11000) 0]
    after (exec (.serviceExpiry 1 0) { s with timebase := 11000 }) (fun t =>
      t.pool.order == [6] && t.slotAt 2 == { generation := 4, ticket := none }
        && t.ticketAt 6 == some { w with count := 5, stamp := 9800, lapses := 1 }
        && (t.port 1).stack.map Entry.state == [.lapsed]) = true := by
  decide +kernel

/-- 7.5, the example: at 1,232 timer 2 (PERIODIC by 16) expires and reloads 5, and timer 5, chained to it at
count 1, expires and reloads 3. -/
theorem test_chain_expires :
    let s := (timed 2 ticking).setTimer 5 { ticking with mode := .chained, reload := 3, chain := 2 }
    after (exec (.timebaseAdvance 0 [] []) { s with timebase := 1231 }) (fun t =>
      (t.timer 2).count == 5 && (t.timer 5).count == 3 && (t.timer 5).running) = true := by
  decide +kernel

/-- 9.7, the example: 40 edges are a FRAME_ERROR with tag 00h, and nothing is taken. -/
theorem test_short_transaction :
    after (exec (.transactionEnd 0 (List.replicate 40 false)) shifting) (fun t =>
      (t.port 0).link.slot.status == .frameError && (t.port 0).link.slot.tag == 0) = true := by
  decide +kernel

/-- R144: bytes that encode no value are refused: EJECT of port byte 7 is BAD_ARG. -/
theorem test_eject_out_of_range :
    after (exec (.eject 0 1 7) pair) (fun t => (t.port 0).link.slot.status == .badArg) = true := by
  decide +kernel

/-! ## Witnesses: the link -/

theorem witness_SelectEdgesOutsideTransaction :
    (State.reset.port 0).link.progress = .awaitHigh
      ∧ ((linked .idle 1).port 0).link.progress = .idle ∧ ((linked .idle 1).port 0).link.sinceRise = 1
      ∧ ((linked .idle 2).port 0).link.progress = .idle ∧ ((linked .idle 2).port 0).link.sinceRise = 2
      ∧ ((linked .unseen 1).port 0).link.progress = .unseen
      ∧ (shifting.port 0).link.progress ≠ .idle ∧ (shifting.port 0).link.progress ≠ .awaitHigh := by
  decide +kernel

theorem witness_SelectRiseOutsideTransaction :
    (∀ cap rec, (State.reset.port 0).link.progress ≠ .shifting cap rec)
      ∧ (∀ cap rec, ((linked .idle 1).port 0).link.progress ≠ .shifting cap rec)
      ∧ ∀ cap rec, ((linked .unseen 1).port 0).link.progress ≠ .shifting cap rec := by
  refine ⟨fun cap rec h => ?_, fun cap rec h => ?_, fun cap rec h => ?_⟩
  · exact Progress.noConfusion h
  · exact Progress.noConfusion h
  · exact Progress.noConfusion h

theorem witness_WrongEdgeCountIsFrameError :
    (shifting.port 0).link.progress = .shifting .reset []
      ∧ ([] : List Bool).length + (List.replicate 127 true).length ≠ 128
      ∧ ([] : List Bool).length + (List.replicate 129 true).length ≠ 128 := by
  decide +kernel

/-- The bits of a transaction with the code 40h, which is no command's, and a correct check byte. -/
def unknownBits : List Bool :=
  let body : List Byte := 0x40 :: 0x05 :: List.replicate 13 0
  (body ++ [checkByte body]).flatMap byteBits

theorem witness_CorruptOrUnknownFrameTakesNoCommand :
    (shifting.port 0).link.progress = .shifting .reset []
      ∧ (List.replicate 128 false).length = 128
      ∧ checkByte ((frameBytes (List.replicate 128 false)).take 15)
          ≠ (frameBytes (List.replicate 128 false)).getD 15 0
      ∧ unknownBits.length = 128 ∧ (streamByte unknownBits 0).toNat = 0x40
      ∧ checkByte ((frameBytes unknownBits).take 15) = (frameBytes unknownBits).getD 15 0 := by
  decide +kernel

/-- The bits of THRESHOLD(9) with tag 31h, every argument byte it does not use AAh. -/
def strayBits : List Bool :=
  let body : List Byte := 0x15 :: 0x31 :: 0x09 :: List.replicate 12 0xAA
  (body ++ [checkByte body]).flatMap byteBits

theorem witness_GoodFrameTakesItsCommand :
    (shifting.port 0).link.progress = .shifting .reset [] ∧ strayBits.length = 128
      ∧ checkByte ((frameBytes strayBits).take 15) = (frameBytes strayBits).getD 15 0
      ∧ streamByte strayBits 0 = (Command.threshold 9).code
      ∧ (∀ k : Fin 13, k.val < (Command.threshold 9).argBytes.length →
          streamByte strayBits (k.val + 2) = (Command.threshold 9).argBytes.getD k.val 0)
      ∧ after (exec (.transactionEnd 0 strayBits) shifting) (fun t => (t.port 0).threshold == 9) = true := by
  decide +kernel

theorem witness_CommandDecodeInvertsEncode :
    (∀ k : Fin 13, k.val < (Command.post 41 7).argBytes.length →
        look (fill fun i : Fin 13 => [0x29, 0x00, 0x07].getD i.val 0xAA : Args) k
          = (Command.post 41 7).argBytes.getD k.val 0) := by
  decide +kernel

theorem witness_ShiftedOutIsCapturedSlot :
    ((linked (.shifting .reset [true]) 2).port 0).link.progress = .shifting .reset [true]
      ∧ Response.reset.flags.depth ≤ 4 ∧ (crowded.portFlags 1).depth = 4 := by
  decide +kernel

/-! ## Witnesses: the laws -/

theorem pair_lawful : pair.Lawful where
  order := by decide +kernel
  noRoom := by decide +kernel
  ticket := by decide +kernel
  deferral := by decide +kernel
  oneWaiting := by decide +kernel
  oneRound := by decide +kernel
  post := by decide +kernel
  stack := by decide +kernel
  holding := by decide +kernel
  token := by decide +kernel
  detached := by decide +kernel
  absent := by decide +kernel
  attention := by decide +kernel
  timer := by decide +kernel
  fault := by decide +kernel
  faultSource := by decide +kernel
  source := by decide +kernel

theorem pair_steps : ∃ t : State, step pair = .next t :=
  next_of_after (p := fun t => t.pending.isEmpty) (by decide +kernel)

theorem witness_StepKeepsLawful : pair.Lawful ∧ ∃ t : State, step pair = .next t := ⟨pair_lawful, pair_steps⟩

theorem witness_StepKeepsPoolOrderAndRoom :
    pair.OrderLaw ∧ pair.NoRoomLaw ∧ ∃ t : State, step pair = .next t :=
  ⟨pair_lawful.order, pair_lawful.noRoom, pair_steps⟩

theorem witness_StepKeepsHostLaws :
    pair.StackLaw ∧ pair.TokenLaw ∧ pair.DetachedLaw ∧ ∃ t : State, step pair = .next t :=
  ⟨pair_lawful.stack, pair_lawful.token, pair_lawful.detached, pair_steps⟩

theorem witness_StepKeepsAttention : pair.AttentionLaw ∧ ∃ t : State, step pair = .next t :=
  ⟨pair_lawful.attention, pair_steps⟩

theorem witness_StepKeepsTimerAndFaultLaws :
    pair.TimerLaw ∧ pair.FaultLaw ∧ ∃ t : State, step pair = .next t :=
  ⟨pair_lawful.timer, pair_lawful.fault, pair_steps⟩

/-! ## Witnesses: session and work -/

theorem witness_StatusReportsStanding : pair.StackLaw := pair_lawful.stack

theorem witness_AttachJoins : (pair.port 1).state = .attached ∧ (pair.port 3).state = .detached := by
  decide +kernel

theorem witness_DetachLeavesNothingBehind : pair.Lawful ∧ (pair.port 1).state = .attached :=
  ⟨pair_lawful, by decide +kernel⟩

theorem holding_lawful : (holding.recompute).Lawful where
  order := by decide +kernel
  noRoom := by decide +kernel
  ticket := by decide +kernel
  deferral := by decide +kernel
  oneWaiting := by decide +kernel
  oneRound := by decide +kernel
  post := by decide +kernel
  stack := by decide +kernel
  holding := by decide +kernel
  token := by decide +kernel
  detached := by decide +kernel
  absent := by decide +kernel
  attention := by decide +kernel
  timer := by decide +kernel
  fault := by decide +kernel
  faultSource := by decide +kernel
  source := by decide +kernel

/-- Host 1 departs with a HELD ticket whose condition still stands. -/
theorem witness_Returns :
    holding.recompute.Lawful ∧ (holding.recompute.port 1).state = .attached ∧ holding.recompute.token = some 0
      ∧ holding.recompute.ticketAt 5 = some (job 42 .single (.held 1) 10)
      ∧ holding.recompute.NothingDeferred ∧ SourceId.posted 42 = true ∧ holding.recompute.StillStands 42
      ∧ (holding.recompute.port 1).stack = [entry 5 42 .active (some 1000) 0]
      ∧ after (exec (.detach 1 9) holding.recompute) (fun t =>
          t.ticketAt 5 == some (job 42 .single .waiting 10) && t.faults.records.length == 1) = true :=
  ⟨holding_lawful, by decide +kernel⟩

/-- Host 1 holds the ticket of line source 3, whose line is inactive. -/
def goneLine : State :=
  (enabled (busy 3 .single (.held 1) (entry 5 3 .active none 0)) 3 6 .high).recompute

theorem goneLine_lawful : goneLine.Lawful where
  order := by decide +kernel
  noRoom := by decide +kernel
  ticket := by decide +kernel
  deferral := by decide +kernel
  oneWaiting := by decide +kernel
  oneRound := by decide +kernel
  post := by decide +kernel
  stack := by decide +kernel
  holding := by decide +kernel
  token := by decide +kernel
  detached := by decide +kernel
  absent := by decide +kernel
  attention := by decide +kernel
  timer := by decide +kernel
  fault := by decide +kernel
  faultSource := by decide +kernel
  source := by decide +kernel

/-- Host 1 departs with a HELD ticket whose line has gone inactive, and the ticket is gone (R83, case 1). -/
theorem witness_ReturnsNothing :
    goneLine.Lawful ∧ (goneLine.port 1).state = .attached
      ∧ goneLine.ticketAt 5 = some (job 3 .single (.held 1) 10) ∧ goneLine.NothingDeferred
      ∧ goneLine.waitingTicket 3 = none
      ∧ (∀ j : SlotId, j ≠ 5 → goneLine.ticketAt j = none) ∧ ¬ goneLine.StillStands 3
      ∧ after (exec (.detach 1 9) goneLine) (fun t => t.ticketAt 5 == none) = true :=
  ⟨goneLine_lawful, by decide +kernel⟩

theorem witness_OfferIsFirstCandidate :
    (offered .single .waiting).OrderLaw ∧ (offered .single .waiting).offer 1 = some 5
      ∧ (offered .single .waiting).candidate 1 5 = true ∧ (offered .single .waiting).candidate 3 5 = false
      ∧ pair.OrderLaw ∧ pair.offer 1 = none := by
  decide +kernel

theorem witness_PeekReportsOffer :
    (pair.port 3).state = .detached
      ∧ (crowded.port 1).state = .attached ∧ (crowded.port 1).stack.length = 4
      ∧ (pair.port 1).state = .attached ∧ (pair.port 1).stack.length < 4 ∧ pair.offer 1 = none
      ∧ (offered .single .waiting).offer 1 = some 5
      ∧ (offered .single .waiting).ticketAt 5 = some (job 42 .single .waiting 10) := by
  decide +kernel

theorem witness_ClaimSingleHolds :
    (offered .single .waiting).offer 1 = some 5
      ∧ (offered .single .waiting).ticketAt 5 = some (job 42 .single .waiting 10)
      ∧ handleOfWord word53 = some ((offered .single .waiting).handleOf 5) := by
  decide +kernel

theorem witness_FirstClaimOpensRound :
    (offered .each .waiting).offer 1 = some 5
      ∧ (offered .each .waiting).ticketAt 5 = some (job 42 .each .waiting 10)
      ∧ handleOfWord word53 = some ((offered .each .waiting).handleOf 5) := by
  decide +kernel

theorem witness_LaterClaimJoinsRound :
    (offered .each (.spread 3 1 none)).offer 1 = some 5
      ∧ (offered .each (.spread 3 1 none)).ticketAt 5 = some (job 42 .each (.spread 3 1 none) 10)
      ∧ handleOfWord word53 = some ((offered .each (.spread 3 1 none)).handleOf 5) := by
  decide +kernel

theorem witness_ClaimThatTakesNothing :
    (crowded.port 1).state = .attached ∧ 4 ≤ (crowded.port 1).stack.length
      ∧ (pair.port 1).state = .attached ∧ (pair.port 1).stack.length < 4 ∧ pair.offer 1 = none
      ∧ ∀ i ∈ (offered .single .waiting).offer 1,
          handleOfWord 0x1500 ≠ some ((offered .single .waiting).handleOf i) := by
  decide +kernel

theorem witness_RetireWithoutActiveTop :
    (pair.port 1).state = .attached ∧ (pair.port 1).stack = []
      ∧ (crowded.port 1).state = .attached
      ∧ (crowded.port 1).stack = entry 5 42 .lapsed none 0 :: List.replicate 3 (entry 5 42 .lapsed none 0)
      ∧ handleOfWord 0x1500 ≠ some (entry 5 42 .lapsed none 0).handle
      ∧ handleOfWord word53 = some (entry 5 42 .lapsed none 0).handle := by
  decide +kernel

theorem witness_RetireHeldFreesTicket :
    (holding.port 1).state = .attached ∧ (holding.port 1).stack = [entry 5 42 .active (some 1000) 0]
      ∧ handleOfWord word53 = some (entry 5 42 .active (some 1000) 0).handle
      ∧ holding.named (entry 5 42 .active (some 1000) 0).handle = some (job 42 .single (.held 1) 10)
      ∧ holding.NothingDeferred ∧ holding.NoCause 42 := by
  decide +kernel

/-- The ticket in slot 5 of source 3 as `GivesBack` has it: HELD, its line inactive; HELD, its line active, with
no WAITING ticket of the source and with one. -/
theorem witness_GivesBack :
    goneLine.ticketAt 5 = some (job 3 .single (.held 1) 10) ∧ (job 3 .single (.held 1) 10).waits = false
      ∧ ¬ goneLine.StillStands 3
      ∧ (busy 3 .single (.held 1) (entry 5 3 .active none 0)).StillStands 3
      ∧ (busy 3 .single (.held 1) (entry 5 3 .active none 0)).waitingTicket 3 = none
      ∧ SourceId.posted 3 = false
      ∧ (keep (busy 3 .single (.held 1) (entry 5 3 .active none 0)) 6 (job 3 .single .waiting 10)).waitingTicket 3
          = some 6 := by
  decide +kernel

/-- Host 1 holds a ticket, and source 33 is deferred with count 4. -/
def waitingForRoom : State := (enabled holding 33 6 .rising).setDeferral 33 (some { count := 4, stamp := 1350 })

theorem witness_RetireGrantsFreedSlot :
    (waitingForRoom.port 1).state = .attached
      ∧ (waitingForRoom.port 1).stack = [entry 5 42 .active (some 1000) 0]
      ∧ handleOfWord word53 = some (entry 5 42 .active (some 1000) 0).handle
      ∧ waitingForRoom.named (entry 5 42 .active (some 1000) 0).handle = some (job 42 .single (.held 1) 10)
      ∧ waitingForRoom.NoCause 42 ∧ waitingForRoom.FirstDeferred 33
      ∧ waitingForRoom.deferralOf 33 = some { count := 4, stamp := 1350 } := by
  decide +kernel

theorem witness_FreeTicket :
    (holding.ticketAt 5).isSome = true ∧ holding.NothingDeferred
      ∧ (waitingForRoom.ticketAt 5).isSome = true ∧ waitingForRoom.FirstDeferred 33 := by
  decide +kernel

/-- Host 1 holds the ticket of line source 3, whose line is at its active level. -/
def stillActive : State :=
  enabled (busy 3 .single (.held 1) (entry 5 3 .active none 0)) 3 6 .low

theorem witness_RetireRearmsActiveLine :
    (stillActive.port 1).state = .attached ∧ (stillActive.port 1).stack = [entry 5 3 .active none 0]
      ∧ handleOfWord word53 = some (entry 5 3 .active none 0).handle
      ∧ stillActive.named (entry 5 3 .active none 0).handle = some (job 3 .single (.held 1) 10)
      ∧ stillActive.NothingDeferred ∧ stillActive.lineActive 3 = true ∧ (stillActive.config 3).level ≠ 0
      ∧ stillActive.liveCount 3 = 1
      ∧ (job 3 .single (.held 1) 10).waits = false ∧ (job 3 .single (.held 1) 10).inRound = false := by
  decide +kernel

/-- Host 1 works on the last share of a round of line source 3, whose line is at its active level. -/
def lastShare : State :=
  enabled (busy 3 .each (.spread 2 2 none) (entry 5 3 .active none 0)) 3 6 .low

theorem witness_RetireRearmsSettledRound :
    (lastShare.port 1).state = .attached ∧ (lastShare.port 1).stack = [entry 5 3 .active none 0]
      ∧ handleOfWord word53 = some (entry 5 3 .active none 0).handle
      ∧ lastShare.named (entry 5 3 .active none 0).handle = some (job 3 .each (.spread 2 2 none) 10)
      ∧ lastShare.NothingDeferred ∧ (job 3 .each (.spread 2 2 none) 10).inRound = true
      ∧ (∀ p : Port, p ≠ 1 → HostSet.has (job 3 .each (.spread 2 2 none) 10).owed p = false)
      ∧ lastShare.lineActive 3 = true ∧ (lastShare.config 3).level ≠ 0 ∧ lastShare.liveCount 3 = 1
      ∧ after (exec (.retire 1 9 word53) lastShare) (fun t =>
          t.ticketAt 0 == some (t.newTicket 3 1 t.timebase none) && t.ticketAt 5 == none) = true := by
  decide +kernel

/-- Host 0 holds the last fault ticket, and the queue holds a record. -/
def unread : State :=
  { (keep pair 5 (job 48 .single (.held 0) 0)).setStack 0 [entry 5 48 .active none 0] with
    faultLevel := 6, faults := { records := [.hostReleased 2 1 77], overflow := false } }

theorem witness_RetireRearmsFaultSource :
    (unread.port 0).state = .attached ∧ (unread.port 0).stack = [entry 5 48 .active none 0]
      ∧ handleOfWord word53 = some (entry 5 48 .active none 0).handle
      ∧ unread.named (entry 5 48 .active none 0).handle = some (job 48 .single (.held 0) 0)
      ∧ unread.NothingDeferred ∧ unread.faults.records ≠ [] ∧ (unread.config 48).level ≠ 0
      ∧ unread.liveCount 48 = 1 := by
  decide +kernel

/-- Host 1 works on its share of a round. -/
def sharing (owed : HostSet) : State :=
  busy 42 .each (.spread owed 2 none) (entry 5 42 .active (some 1000) 0)

theorem witness_RetireShareLeavesRound :
    ((sharing 3).port 1).state = .attached
      ∧ ((sharing 3).port 1).stack = [entry 5 42 .active (some 1000) 0]
      ∧ handleOfWord word53 = some (entry 5 42 .active (some 1000) 0).handle
      ∧ (sharing 3).named (entry 5 42 .active (some 1000) 0).handle = some (job 42 .each (.spread 3 2 none) 10)
      ∧ (sharing 3).NothingDeferred ∧ (sharing 3).NoCause 42
      ∧ (∃ p : Port, p ≠ 1 ∧ HostSet.has 3 p = true)
      ∧ (sharing 2).named (entry 5 42 .active (some 1000) 0).handle = some (job 42 .each (.spread 2 2 none) 10)
      ∧ (sharing 2).NothingDeferred ∧ (sharing 2).NoCause 42
      ∧ (sharing 3).ticketAt 5 = some (job 42 .each (.spread 3 2 none) 10)
      ∧ (sharing 2).ticketAt 5 = some (job 42 .each (.spread 2 2 none) 10)
      ∧ ∀ p : Port, p ≠ 1 → HostSet.has 2 p = false := by
  decide +kernel

theorem witness_ExtendRestartsDeadline :
    (pair.port 3).state = .detached
      ∧ (pair.port 1).state = .attached ∧ (pair.port 1).stack = []
      ∧ (crowded.port 1).stack.head? = some (entry 5 42 .lapsed none 0)
      ∧ handleOfWord 0x1500 ≠ some (entry 5 42 .lapsed none 0).handle
      ∧ handleOfWord word53 = some (entry 5 42 .lapsed none 0).handle
      ∧ ((busy 42 .single (.held 1) (entry 5 42 .active none 0)).port 1).stack = [entry 5 42 .active none 0]
      ∧ ((busy 42 .single (.held 1) (entry 5 42 .active (some 9) 3)).port 1).stack
          = [entry 5 42 .active (some 9) 3]
      ∧ ((busy 42 .single (.held 1) (entry 5 42 .active (some 9) 2)).port 1).stack
          = [entry 5 42 .active (some 9) 2]
      ∧ (busy 42 .single (.held 1) (entry 5 42 .active (some 9) 2)).named (entry 5 42 .active (some 9) 2).handle
          = some (job 42 .single (.held 1) 10) := by
  decide +kernel

theorem witness_ThresholdSetsLevel :
    (pair.port 3).state = .detached ∧ (pair.port 1).state = .attached
      ∧ 15 < (16 : Byte).toNat ∧ (15 : Byte).toNat = (15 : Fin 16).val := by
  decide +kernel

/-- Source 40 has four live tickets. -/
def saturated : State :=
  [0, 1, 2, 3].foldl (fun s i => keep s i (job 40 .single .waiting 0)) (enabled pair 40 5 .rising)

theorem witness_PostCreatesTicket :
    (pair.port 3).state = .detached ∧ (pair.port 1).state = .attached
      ∧ (39 : Byte).toNat < 40 ∧ 47 < (48 : Byte).toNat
      ∧ (47 : Byte).toNat = (47 : SourceId).val ∧ (pair.config 47).level = 0
      ∧ (40 : Byte).toNat = (40 : SourceId).val
      ∧ (saturated.config 40).level ≠ 0 ∧ 4 ≤ saturated.liveCount 40
      ∧ ((enabled exhausted 40 5 .rising).config 40).level ≠ 0
      ∧ (enabled exhausted 40 5 .rising).liveCount 40 < 4
      ∧ (∀ i : SlotId, ((enabled exhausted 40 5 .rising).ticketAt i).isSome = true)
      ∧ ((enabled holding 47 5 .rising).config 47).level ≠ 0 ∧ (enabled holding 47 5 .rising).liveCount 47 < 4
      ∧ (enabled holding 47 5 .rising).ticketAt 0 = none ∧ ∀ k : SlotId, ¬ k < 0 := by
  decide +kernel

/-! ## Witnesses: timers -/

theorem witness_TimerCommands :
    (pair.port 3).state = .detached ∧ (pair.port 1).state = .attached
      ∧ 7 < (8 : Byte).toNat ∧ (7 : Byte).toNat = (7 : TimerId).val
      ∧ (pair.timer 7).running = false ∧ (pair.timer 7).mode = .off
      ∧ ((timed 7 ticking).timer 7).running = true ∧ ((timed 7 ticking).timer 7).mode ≠ .off
      ∧ ((timed 7 ticking).timer 7).owner = some 1 ∧ ((timed 7 ticking).timer 7).owner ≠ some 0
      ∧ (timed 7 ticking).token = some 0 ∧ (timed 7 ticking).token ≠ some 1
      ∧ ({ timed 7 ticking with token := none }.timer 7).owner ≠ some 0
      ∧ { timed 7 ticking with token := none }.token ≠ some 0
      ∧ ((timed 7 { ticking with running := false, owner := none }).timer 7).running = false
      ∧ ((timed 7 { ticking with running := false, owner := none }).timer 7).mode ≠ .off := by
  decide +kernel

/-- Both clauses of TIMER_SETUP at the ends of its ranges: gate 31 is accepted in PERIODIC mode and 32 is not;
chain 7 is accepted for timer 6 and not for timer 7. -/
theorem witness_TimerSetupConfigures :
    after (exec (.timerSetup 1 2 7 1 3 1 31 7) pair) (fun t => (t.port 1).link.slot.status == .ok) = true
      ∧ after (exec (.timerSetup 1 2 7 1 3 1 32 7) pair) (fun t => (t.port 1).link.slot.status == .badArg) = true
      ∧ after (exec (.timerSetup 1 2 6 3 0 1 0xFF 7) pair) (fun t => (t.port 1).link.slot.status == .ok) = true
      ∧ after (exec (.timerSetup 1 2 7 3 0 1 0xFF 7) pair)
          (fun t => (t.port 1).link.slot.status == .badArg) = true := by
  decide +kernel

/-! ## Witnesses: supervision -/

theorem witness_TakeGivesVacantToken :
    (pair.port 3).state = .detached ∧ (pair.port 1).state = .attached ∧ pair.token = some 0
      ∧ { pair with token := none }.token = none ∧ ({ pair with token := none }.port 1).state = .attached := by
  decide +kernel

theorem witness_HandoverPassesToken :
    (pair.port 0).state = .attached ∧ pair.token = some 0 ∧ 3 < (4 : Byte).toNat
      ∧ (3 : Byte).toNat = (3 : Port).val ∧ (pair.port 3).state = .detached
      ∧ (0 : Byte).toNat = (0 : Port).val
      ∧ (1 : Byte).toNat = (1 : Port).val ∧ (1 : Port) ≠ 0 ∧ (pair.port 1).state = .attached := by
  decide +kernel

theorem witness_EjectDetachesTarget :
    pair.Lawful ∧ (pair.port 0).state = .attached ∧ pair.token = some 0 ∧ 3 < (4 : Byte).toNat
      ∧ (3 : Byte).toNat = (3 : Port).val ∧ (pair.port 3).state = .detached
      ∧ (1 : Byte).toNat = (1 : Port).val ∧ (1 : Port) ≠ 0 ∧ (pair.port 1).state = .attached :=
  ⟨pair_lawful, by decide +kernel⟩

/-- Nine configuration bytes: level 5, SINGLE, eligible to host 0, service limit 1, retry limit 7, and the
byte c8. -/
def nine (level c8 : Byte) : Vector Byte 9 := #v[level, 0, 1, 0xFF, 0, 0, 0, 0x17, c8]

/-- The nine bytes that give source 48 a level: c1 to c8 are FFh (R146). -/
def onlyLevel (level : Byte) : Vector Byte 9 := #v[level, 0xFF, 0xFF, 0xFF, 0xFF, 0xFF, 0xFF, 0xFF, 0xFF]

theorem witness_ConfigurationBytesDecode :
    (3 : SourceId) ≠ faultSource ∧ (recordOfBytes 3 (nine 15 0x4F)).isSome = true
      ∧ (recordOfBytes 3 (nine 16 0x4F)).isSome = false ∧ (recordOfBytes 3 (nine 15 0x50)).isSome = false
      ∧ (47 : SourceId) ≠ faultSource
      ∧ (pair.recordGiven faultSource (onlyLevel 15)).isSome = true
      ∧ (pair.recordGiven faultSource (onlyLevel 16)).isSome = false
      ∧ (pair.recordGiven faultSource (nine 15 0xF0)).isSome = false := by
  decide +kernel

theorem witness_SourceSetReplacesRecord :
    (pair.port 0).state = .attached ∧ pair.token = some 0 ∧ 48 < (49 : Byte).toNat
      ∧ (48 : Byte).toNat = (48 : SourceId).val ∧ (3 : Byte).toNat = (3 : SourceId).val
      ∧ pair.recordGiven 3 (nine 16 0x40) = none ∧ (pair.recordGiven 3 (nine 15 0x40)).isSome = true
      ∧ (pair.recordGiven 48 (onlyLevel 12)).isSome = true
      ∧ holding.token = some 0 ∧ holding.ticketAt 5 = some (job 42 .single (.held 1) 10) := by
  decide +kernel

theorem witness_SourceSetSettlesPendingWork :
    pair.Lawful ∧ (pair.port 0).state = .attached ∧ pair.token = some 0
      ∧ (3 : Byte).toNat = (3 : SourceId).val
      ∧ ((pair.recordGiven 3 (nine 0 0x40)).map SourceRecord.level) = some 0
      ∧ ((pair.recordGiven 3 (nine 1 0x40)).map SourceRecord.level) = some 1
      ∧ after (exec (.sourceSet 0 1 3 (nine 1 0x30)) pair) (fun t => t.lineInactive 3) = true
      ∧ after (exec (.sourceSet 0 1 3 (nine 1 0x40)) pair) (fun t => t.lineActive 3) = true
      ∧ (pair.config 3).level = 0 ∧ pair.deferralOf 3 = none ∧ pair.ticketAt 0 = none
      ∧ (∀ i : SlotId, pair.ticketAt i = none) ∧ ∀ k : SlotId, ¬ k < 0 :=
  ⟨pair_lawful, by decide +kernel⟩

/-- Source 3, RISING with its line high, is enabled: an edge sense, so no occurrence (R13). Source 48 is enabled
with no record in the queue (R16). -/
theorem witness_SourceSetLeavesPool :
    ((pair.recordGiven 3 (nine 1 0x00)).map SourceRecord.level) = some 1
      ∧ ((pair.recordGiven 48 (onlyLevel 1)).map SourceRecord.level) = some 1 ∧ pair.faults.records = []
      ∧ after (exec (.sourceSet 0 1 3 (nine 1 0x00)) pair) (fun t => !t.lineInactive 3 && !t.lineActive 3) = true
      ∧ after (exec (.sourceSet 0 1 48 (onlyLevel 1)) pair) (fun t => !t.lineInactive 48 && !t.lineActive 48)
          = true := by
  decide +kernel

/-- The fault queue holds a record that source 48, disabled, has not told of. -/
def untold : State := { pair with faults := { records := [.hostReleased 2 1 77], overflow := false } }

theorem untold_lawful : untold.Lawful :=
  { pair_lawful with
    holding := by decide +kernel
    attention := by decide +kernel
    fault := by decide +kernel
    faultSource := by decide +kernel }

theorem witness_SourceSetEnablesFaultSource :
    untold.Lawful ∧ (untold.port 0).state = .attached ∧ untold.token = some 0
      ∧ (48 : Byte).toNat = (48 : SourceId).val
      ∧ ((untold.recordGiven 48 (onlyLevel 1)).map SourceRecord.level) = some 1
      ∧ (untold.config 48).level = 0 ∧ untold.faults.records ≠ [] ∧ pair.faults.records = []
      ∧ (∀ i : SlotId, untold.ticketAt i = none) ∧ untold.deferralOf 48 = none :=
  ⟨untold_lawful, by decide +kernel⟩

theorem witness_SourceReadReportsRecord :
    (pair.port 3).state = .detached ∧ (pair.port 1).state = .attached ∧ 48 < (49 : Byte).toNat
      ∧ (48 : Byte).toNat = (48 : SourceId).val := by
  decide +kernel

theorem witness_FlushFreesAndRearms :
    (stillActive.port 0).state = .attached ∧ stillActive.token = some 0
      ∧ ((List.finRange 49).filter fun src =>
          decide ((stillActive.config src).level ≠ 0)
            && (stillActive.lineActive src || (src == faultSource && !stillActive.faults.records.isEmpty)))
        = [3] := by
  decide +kernel

/-- The queue holds so many records. -/
def recorded (n : Nat) : State :=
  { pair with faults := { records := List.replicate n (.hostReleased 2 1 77), overflow := true } }

/-- The queue holds one record. -/
def told (r : FaultRecord) : State := { pair with faults := { records := [r], overflow := false } }

/-- R147 by hand: SHARE_LAPSED of source 3, handle 5/3, host 2, stamp 77 (4Dh), with none left. -/
theorem test_fault_report :
    after (exec (.faultRead 0 9) (told (.shareLapsed 3 ⟨5, 3⟩ 2 77))) (fun t =>
      (t.port 0).link.slot.data.toList
        == [0x02, 0x14, 0xC3, 0x02, 0x00, 0x00, 0x00, 0x00, 0x00, 0x00, 0x4D, 0x00]) = true := by
  decide +kernel

theorem witness_FaultReadRemovesOldest :
    (recorded 8).FaultLaw ∧ ((recorded 8).port 0).state = .attached ∧ (recorded 8).token = some 0
      ∧ (recorded 8).faults.records = .hostReleased 2 1 77 :: List.replicate 7 (.hostReleased 2 1 77)
      ∧ (recorded 0).FaultLaw ∧ (recorded 0).faults.records = []
      ∧ (recorded 1).FaultLaw ∧ (recorded 1).faults.records = [.hostReleased 2 1 77]
      ∧ (told (.abandoned 3 ⟨5, 3⟩ 7 77)).faults.records = [.abandoned 3 ⟨5, 3⟩ 7 77]
      ∧ (told (.shareLapsed 3 ⟨5, 3⟩ 2 77)).faults.records = [.shareLapsed 3 ⟨5, 3⟩ 2 77]
      ∧ (recorded 1).waitingTicket faultSource = none ∧ (recorded 1).NothingDeferred
      ∧ (keep (recorded 1) 5 (job 48 .single .waiting 0)).waitingTicket faultSource = some 5
      ∧ (keep (recorded 1) 5 (job 48 .single .waiting 0)).NothingDeferred := by
  decide +kernel

theorem witness_TriggerMakesOccurrence :
    (pair.port 3).state = .detached ∧ (pair.port 1).state = .attached ∧ pair.token ≠ some 1
      ∧ (pair.port 0).state = .attached ∧ pair.token = some 0 ∧ 40 ≤ (40 : Byte).toNat
      ∧ (39 : Byte).toNat = (39 : SourceId).val ∧ (pair.config 39).level = 0
      ∧ (31 : Byte).toNat = (31 : SourceId).val
      ∧ ((enabled pair 31 5 .high).config 31).sense.activeLevel.isSome = true
      ∧ ((enabled pair 31 5 .both).config 31).sense.activeLevel = none
      ∧ ((enabled pair 31 5 .both).config 31).level ≠ 0
      ∧ (keep (enabled pair 31 5 .both) 5 (job 31 .single .waiting 0)).waitingTicket 31 = some 5
      ∧ ((enabled pair 31 5 .both).setDeferral 31 (some ⟨255, 9⟩)).waitingTicket 31 = none
      ∧ ((enabled pair 31 5 .both).setDeferral 31 (some ⟨255, 9⟩)).deferralOf 31 = some ⟨255, 9⟩
      ∧ (enabled pair 31 5 .both).deferralOf 31 = none ∧ (enabled pair 31 5 .both).ticketAt 0 = none
      ∧ (enabled exhausted 31 5 .both).waitingTicket 31 = none
      ∧ ∀ i : SlotId, ((enabled exhausted 31 5 .both).ticketAt i).isSome = true := by
  decide +kernel

theorem witness_Occurs :
    SourceId.posted 48 = false ∧ (pair.config 48).level = 0 ∧ ({ pair with faultLevel := 5 }.config 48).level ≠ 0
      ∧ { pair with faultLevel := 5 }.waitingTicket 48 = none ∧ { pair with faultLevel := 5 }.deferralOf 48 = none
      ∧ { pair with faultLevel := 5 }.ticketAt 0 = none := by
  decide +kernel

theorem witness_RefusalsComeFirst :
    (pair.port 3).state = .detached ∧ Command.take.code.toNat ∉ [0x00, 0x01, 0x03, 0x04, 0x05]
      ∧ (pair.port 1).state = .attached ∧ pair.token ≠ some 1
      ∧ Command.flush.code.toNat ∈ [0x31, 0x32, 0x33, 0x35, 0x36, 0x37] := by
  decide +kernel

/-! ## Witnesses: events of the part -/

/-- Source 0 is HIGH with filter 0, and its line is recognised low and has been sampled. -/
def quietLine : State :=
  (enabled pair 0 5 .high).setLine 0 { recognised := false, run := 0, sampled := true, sampleDue := false }

theorem witness_AdvanceSamplesLines :
    quietLine.QuietAt quietLine.timebase ∧ quietLine.QuietAt (quietLine.timebase + 1)
      ∧ (∀ m : LineId, m ≠ 0 → ¬ quietLine.Changes m ((1 : BitVec 32).getLsbD m.val))
      ∧ quietLine.Changes 0 ((1 : BitVec 32).getLsbD (0 : LineId).val)
      ∧ ¬ quietLine.Changes 0 ((0 : BitVec 32).getLsbD (0 : LineId).val)
      ∧ (keep quietLine 5 (job 0 .single .waiting 0)).waitingTicket 0 = some 5
      ∧ quietLine.waitingTicket 0 = none := by
  decide +kernel

theorem witness_AdvanceStepsTimers :
    ((timed 7 ticking).timer 7).running = true ∧ ((timed 7 ticking).timer 7).mode = .periodic
      ∧ ((timed 7 ticking).timer 7).gate = none ∧ ((timed 7 ticking).timer 7).stepDue = false
      ∧ ({ timed 7 ticking with timebase := 15 }.timebase.toNat + 1) % 2 ^ 48
          % ((timed 7 ticking).timer 7).prescale.steps = 0
      ∧ ((timed 7 { ticking with gate := some 31 }).timer 7).gate = some 31
      ∧ ((timed 7 { ticking with gate := some 31 }).line 31).recognised = false
      ∧ after (exec (.timebaseAdvance 0 [] []) { timed 7 { ticking with gate := some 31 } with timebase := 15 })
          (fun t => (t.line 31).recognised == false && t.timer 7 == { ticking with gate := some 31 }) = true
      ∧ after (exec (.timebaseAdvance 0x80000000 [] []) { timed 7 { ticking with gate := some 31 } with timebase := 15 })
          (fun t => (t.line 31).recognised == true && (t.timer 7).count == 5) = true := by
  decide +kernel

/-- Timer 7 expires at the next advance, timer 6 counts the expiries of timer 5, which is stopped, and timer 5
those of timer 7. -/
def stillChain : State :=
  { ((timed 7 { ticking with prescale := .by1 }).setTimer 6 { ticking with mode := .chained, chain := 5 }).setTimer 5
      { ticking with mode := .chained, chain := 7, running := false, owner := none } with timebase := 15 }

theorem witness_AdvanceLeavesTimers :
    (∀ m : TimerId, (stillChain.timer m).stepDue = false) ∧ (stillChain.timer 5).running = false
      ∧ (stillChain.timer 4).mode = .off ∧ (stillChain.timer 6).mode = .chained
      ∧ stillChain.Reaches (stillChain.timebase + 1) (.timer 7) ∧ (stillChain.timer 7).count = 1
      ∧ ∀ m : TimerId, stillChain.expiresWith m (stillChain.timer 6).chain = true →
          stillChain.Reaches (stillChain.timebase + 1) (.timer m) → (stillChain.timer m).count ≠ 1 := by
  decide +kernel

/-- Every event of an advance but the affinity expiry of slot 5. -/
def others : List AdvanceEvent := allAdvanceEvents.filter fun x => x ≠ .affinity 5

theorem event_listed (x : AdvanceEvent) : x ∈ allAdvanceEvents := by
  cases x <;> simp [allAdvanceEvents, allExpiries]

/-- An expiry taken last, whatever else the advance brings (the second clause). -/
theorem witness_ExpiryTakenLast :
    rowTaking (timersOf (others ++ [.affinity 5])) (.affinity 5) = some (.affinityExpiry 5)
      ∧ .affinity 5 ∉ others ∧ ∀ x : AdvanceEvent, x ≠ .affinity 5 → x ∈ others :=
  ⟨rfl, by simp [others], fun x h => by simp [others, event_listed, h]⟩

/-- Slot 5 holds a ticket reserved for host 1 until the next instant, and every line has been sampled. -/
def soonOver : State :=
  { keep pair 5 { job 42 .single .waiting 10 with reservation := some { host := 1, expiry := 1 } } with
    lines := Vector.replicate 32 { recognised := false, run := 0, sampled := true, sampleDue := false } }

/-- An expiry that is the only one of its advance (the third clause). -/
theorem witness_OnlyExpiry :
    soonOver.NothingLeft ∧ soonOver.Reaches (soonOver.timebase + 1) (.affinity 5)
      ∧ (∀ x : AdvanceEvent, x ≠ .affinity 5 → ¬ soonOver.Reaches (soonOver.timebase + 1) x)
      ∧ (∀ n : LineId, (soonOver.line n).sampled = true ∧ ¬ soonOver.Changes n ((0 : BitVec 32).getLsbD n.val)) := by
  refine ⟨fun x _ => ?_, by decide +kernel, fun x h => ?_, by decide +kernel⟩
  · have all : ∀ x ∈ allExpiries, soonOver.isDue x = false := by decide +kernel
    cases x with
    | line n => exact absurd ‹_› (by simp [rowTaking])
    | _ => exact all _ (by simp [allExpiries])
  · cases x with
    | line n => exact not_false
    | timer n =>
      have all : ∀ n : TimerId, ¬ soonOver.Reaches (soonOver.timebase + 1) (.timer n) := by decide +kernel
      exact all n
    | service g k =>
      have all : ∀ (g : Port) (k : Fin 4), ¬ soonOver.Reaches (soonOver.timebase + 1) (.service g k) := by
        decide +kernel
      exact all g k
    | collection i =>
      have all : ∀ i : SlotId, ¬ soonOver.Reaches (soonOver.timebase + 1) (.collection i) := by decide +kernel
      exact all i
    | affinity i =>
      have all : ∀ i : SlotId, i ≠ 5 → ¬ soonOver.Reaches (soonOver.timebase + 1) (.affinity i) := by
        decide +kernel
      exact all i fun e => h (e ▸ rfl)

/-- Timer 7 has been held at its expiry. -/
def heldTimer : State := timed 7 { ticking with stepDue := true }

theorem witness_TimerExpiryReloadsOrStops :
    (heldTimer.timer 7).running = true ∧ (heldTimer.timer 7).stepDue = true ∧ (heldTimer.timer 7).count = 1
      ∧ (heldTimer.timer 7).mode = .periodic ∧ (heldTimer.timer 7).gate = none
      ∧ ((timed 7 ticking).timer 7).stepDue = false := by
  decide +kernel

/-- Timer 6 is chained to timer 7 and expires with it. -/
theorem witness_TimerExpiryOfChain :
    ((heldTimer.setTimer 6 { ticking with mode := .chained, chain := 7 }).expiresWith 7 6) = true
      ∧ ((heldTimer.setTimer 6 { ticking with mode := .chained, chain := 7, count := 2 }).expiresWith 7 6) = false
      ∧ [(6 : TimerId)].Nodup
      ∧ ((timed 7 { ticking with stepDue := true, gate := some 0 }).line 0).recognised = false := by
  decide +kernel

/-- Host 1's entry in slot 5 expires now; its ticket has the lapse count given. -/
def expiring (src : SourceId) (policy : Policy) (standing : Standing) (lapses : Nat) : State :=
  { (keep pair 5 { job src policy standing 10 with lapses := lapses }).setStack 1
      [entry 5 src .active (some 1000) 0] with timebase := 1000 }

theorem witness_ServiceExpiryAbandons :
    ((expiring 42 .single (.held 1) 2).port 1).stack[(0 : Fin 4).val]? = some (entry 5 42 .active (some 1000) 0)
      ∧ (expiring 42 .single (.held 1) 2).timebase = 1000
      ∧ (expiring 42 .single (.held 1) 2).named (entry 5 42 .active (some 1000) 0).handle
          = some { job 42 .single (.held 1) 10 with lapses := 2 }
      ∧ (3 : Fin 8).val = 2 + 1
      ∧ (expiring 42 .single (.held 1) 2).NothingDeferred ∧ (expiring 42 .single (.held 1) 2).faultLevel = 0
      ∧ ∀ e ∈ (crowded.port 1).stack[(3 : Fin 4).val]?, e.state = .lapsed := by
  decide +kernel

theorem witness_ServiceExpiryReturnsTicket :
    (expiring 7 .single (.held 1) 1).OrderLaw
      ∧ ((expiring 7 .single (.held 1) 1).port 1).stack[(0 : Fin 4).val]? = some (entry 5 7 .active (some 1000) 0)
      ∧ (expiring 7 .single (.held 1) 1).timebase = 1000
      ∧ (expiring 7 .single (.held 1) 1).named (entry 5 7 .active (some 1000) 0).handle
          = some { job 7 .single (.held 1) 10 with lapses := 1 }
      ∧ 1 + 1 < (3 : Fin 8).val
      ∧ (expiring 7 .single (.held 1) 1).NothingDeferred
      ∧ (expiring 7 .single (.held 1) 1).lineInactive 7 = false
      ∧ (expiring 7 .single (.held 1) 1).waitingTicket 7 = none
      ∧ (enabled (expiring 7 .single (.held 1) 1) 7 6 .high).lineInactive 7 = true
      ∧ (keep (expiring 7 .single (.held 1) 1) 6 (job 7 .single .waiting 10)).OrderLaw
      ∧ (keep (expiring 7 .single (.held 1) 1) 6 (job 7 .single .waiting 10)).waitingTicket 7 = some 6
      ∧ (keep (expiring 7 .single (.held 1) 1) 6 (job 7 .single .waiting 10)).NothingDeferred
      ∧ SourceId.posted 7 = false := by
  decide +kernel

theorem witness_ServiceExpiryDropsShare :
    ((expiring 42 .each (.spread 3 2 none) 0).port 1).stack[(0 : Fin 4).val]?
        = some (entry 5 42 .active (some 1000) 0)
      ∧ (expiring 42 .each (.spread 3 2 none) 0).timebase = 1000
      ∧ (expiring 42 .each (.spread 3 2 none) 0).named (entry 5 42 .active (some 1000) 0).handle
          = some (job 42 .each (.spread 3 2 none) 10)
      ∧ (42 : SourceId) ≠ faultSource ∧ (∃ p : Port, p ≠ 1 ∧ HostSet.has 3 p = true)
      ∧ (expiring 42 .each (.spread 2 2 none) 0).named (entry 5 42 .active (some 1000) 0).handle
          = some (job 42 .each (.spread 2 2 none) 10)
      ∧ ∀ p : Port, p ≠ 1 → HostSet.has 2 p = false := by
  decide +kernel

/-- Slot 5 holds a round of hosts 0 and 1 with the claimed set, whose collection expiry is now. -/
def collecting (claimed : HostSet) : State :=
  { offered .each (.spread 3 claimed (some 1000)) with timebase := 1000 }

theorem witness_CollectionExpiryDropsUnclaimed :
    (collecting 2).ticketAt 5 = some (job 42 .each (.spread 3 2 (some (collecting 2).timebase)) 10)
      ∧ (3 : HostSet) &&& 2 ≠ 0 ∧ (42 : SourceId) ≠ faultSource ∧ (collecting 2).ticketAt 6 = none
      ∧ (collecting 0).ticketAt 5 = some (job 42 .each (.spread 3 0 (some (collecting 0).timebase)) 10)
      ∧ (3 : HostSet) &&& 0 = 0 := by
  decide +kernel

/-- Slot 5 holds a ticket reserved for host 1 until now. -/
def reserved : State :=
  { keep pair 5 { job 42 .single .waiting 10 with reservation := some { host := 1, expiry := 1000 } } with
    timebase := 1000 }

theorem witness_AffinityExpiryEndsReservation :
    (reserved.ticketAt 5).bind Ticket.reservation = some { host := 1, expiry := reserved.timebase }
      ∧ reserved.ticketAt 6 = none := by
  decide +kernel

end Sys2Proof.Tests
end

section
/-! SUPPORT. The sources and their occurrences: LINES, SOURCE_READ and TRIGGER (R9, R17, R18, R19). -/

namespace Sys2Proof.Machine

/-! ## The checks that stand before a command -/

/-- An ATTACHED port takes the command (R139). -/
theorem ifAttached_of_attached {s : State} {h : Port} (ha : (s.port h).state = .attached) (tag : Byte)
    (run : State) : s.ifAttached h tag run = run := by
  simp [State.ifAttached, State.attached, ha]

/-- A DETACHED port is answered NOT_ATTACHED (R139). -/
theorem ifAttached_of_detached {s : State} {h : Port} (hd : (s.port h).state = .detached) (tag : Byte)
    (run : State) : s.ifAttached h tag run = s.answer h tag .notAttached [] := by
  simp [State.ifAttached, State.attached, hd]

/-- The check of attachment stands before the check of the token (R121). -/
theorem ifSupervisor_of_detached {s : State} {h : Port} (hd : (s.port h).state = .detached) (tag : Byte)
    (run : State) : s.ifSupervisor h tag run = s.answer h tag .notAttached [] :=
  ifAttached_of_detached hd tag _

/-- An ATTACHED port without the token is answered NOT_SUPERVISOR (R121). -/
theorem ifSupervisor_of_not_holder {s : State} {h : Port} (ha : (s.port h).state = .attached)
    (ht : s.token ≠ some h) (tag : Byte) (run : State) :
    s.ifSupervisor h tag run = s.answer h tag .notSupervisor [] := by
  rw [State.ifSupervisor, ifAttached_of_attached ha, if_neg ht]

/-- The token holder's command is taken (R121). -/
theorem ifSupervisor_of_holder {s : State} {h : Port} (ha : (s.port h).state = .attached)
    (ht : s.token = some h) (tag : Byte) (run : State) : s.ifSupervisor h tag run = run := by
  rw [State.ifSupervisor, ifAttached_of_attached ha, if_pos ht]

/-- A row whose outcome is an answer to the state as it stands changes the response slot alone, and leaves that
answer in it. -/
theorem answers_of_next {i : Instr} {s t : State} {h : Port} {tag : Byte} {st : Status} {d : List Byte}
    (ht : exec i s = .next t) (he : exec i s = .next (s.answer h tag st d)) :
    OnlyAnswers s t h ∧ t.Answered h tag st d := by
  obtain rfl := Host.Outcome.next.inj (ht.symm.trans he)
  exact ⟨onlyAnswers_answer .., answered_answer ..⟩

/-! ## LINES -/

/-- The byte of one bit holds it at its position alone. -/
theorem getLsbD_bitAt (pos m : Nat) (b : Bool) (hm : m < 8) :
    (bitAt pos b).getLsbD m = (decide (m = pos) && b) := by
  cases b
  · simp [bitAt]
  · simp only [bitAt, if_true, BitVec.getLsbD_shiftLeft, hm, decide_true, Bool.true_and, Bool.and_true,
      BitVec.getLsbD_one]
    by_cases hpos : m = pos <;> simp [hpos]; omega

/-- A byte put together bit by bit holds at each position the bit of that position. -/
theorem getLsbD_foldl_bitAt (f : Nat → Bool) (n m : Nat) (hm : m < 8) :
    ((List.range n).foldl (fun acc j => acc ||| bitAt j (f j)) (0 : Byte)).getLsbD m = (decide (m < n) && f m) := by
  induction n with
  | zero => simp
  | succ n ih =>
    rw [List.range_succ, List.foldl_append, List.foldl_cons, List.foldl_nil, BitVec.getLsbD_or, ih,
      getLsbD_bitAt _ _ _ hm]
    rcases lt_trichotomy m n with h | rfl | h
    · simp [h, h.ne, h.trans n.lt_succ_self]
    · simp
    · simp [h.not_gt, h.ne', show ¬ m < n + 1 by omega]

/-- The data bytes of a response, read as a list. -/
theorem dataBytes_toList_getD (d : List Byte) {k : Nat} (hk : k < 12) :
    (dataBytes d).toList.getD k 0 = d.getD k 0 := by
  have := look_dataBytes d ⟨k, hk⟩
  simpa [look, List.getD_eq_getElem?_getD, hk] using this

/-- LINES reports four bytes. -/
theorem linesReport_length (s : State) : s.linesReport.length = 4 := by
  simp [State.linesReport]

/-- The four bytes of LINES, by their positions. -/
theorem linesReport_eq_map_getD (s : State) :
    ((List.range 4).map fun k => s.linesReport.getD k 0) = s.linesReport := by
  apply List.ext_getElem
  · simp [linesReport_length]
  · intro k h1 h2
    simp [List.getD_eq_getElem?_getD, h2]

/-- Bit n of the word of LINES is the recognised level of line n (R147). -/
theorem linesReport_bit (s : State) (n : LineId) :
    (s.linesReport.getD (3 - n.val / 8) 0).getLsbD (n.val % 8) = (s.line n).recognised := by
  have hn := n.isLt
  have hk : 3 - n.val / 8 < 4 := by omega
  have hpos : 8 * (3 - (3 - n.val / 8)) + n.val % 8 = n.val := by omega
  rw [State.linesReport, List.getD_eq_getElem?_getD, List.getElem?_map, List.getElem?_range hk]
  simp only [Option.map_some, Option.getD_some]
  rw [getLsbD_foldl_bitAt _ 8 _ (Nat.mod_lt _ (by decide)), hpos]
  simp [State.line, look, Nat.mod_lt]

/-- Settles O11: bit n of the four bytes is put together from line n alone. -/
theorem linesReportRecognisedLevels : Obligations.LinesReportRecognisedLevels := by
  intro h tag s
  have hdata (k : Nat) (hk : k < 12) :
      ((s.answer h tag .ok s.linesReport).port h).link.slot.data.toList.getD k 0 = s.linesReport.getD k 0 := by
    rw [answer_slot]
    exact dataBytes_toList_getD _ hk
  have hreport : ((List.range 4).map fun k =>
      ((s.answer h tag .ok s.linesReport).port h).link.slot.data.toList.getD k 0) = s.linesReport :=
    (List.map_congr_left fun k hk => hdata k (by have := List.mem_range.1 hk; omega)).trans
      (linesReport_eq_map_getD s)
  refine ⟨s.answer h tag .ok s.linesReport, rfl, onlyAnswers_answer .., ?_, fun n => ?_⟩
  · rw [hreport]
    exact answered_answer ..
  · rw [hdata _ (by omega)]
    exact linesReport_bit s n

/-! ## SOURCE_READ -/

/-- The record that source 48 reads with (R19). -/
theorem config_faultSource (s : State) :
    s.config faultSource =
      { level := s.faultLevel, policy := .single
        eligible := (s.token.map HostSet.only).getD 0, preferred := none, window := 0
        serviceLimit := 0, retryLimit := 7, sense := .rising, filter := 0 } := by
  have htoken : s.tokenSet = (s.token.map HostSet.only).getD 0 := by
    unfold State.tokenSet
    cases s.token <;> rfl
  simp [State.config, faultSource, State.faultRecordOf, htoken]

/-- A source is the line source of a line exactly when that line is the source's. -/
theorem line_eq_some {src : SourceId} {n : LineId} : SourceId.line src = some n ↔ lineSource n = src := by
  have := n.isLt
  unfold SourceId.line lineSource
  split <;> simp [Fin.ext_iff] <;> omega

/-- The level in bits 3 to 0 and a flag in bit 7 of a byte, as a number. -/
theorem levelByte_eq (l : Fin 16) (b : Bool) :
    (byteOf l.val ||| bitAt 7 b) = BitVec.ofNat 8 (l.val + if b = true then 128 else 0) := by
  revert l b
  decide

/-- The word of the service limit and the retry limit, as a number (R146). -/
theorem limitWord_toNat (limit : BitVec 12) (retry : Fin 8) :
    (limit ++ BitVec.ofNat 4 retry.val).toNat = 16 * limit.toNat + retry.val := by
  have := retry.isLt
  rw [BitVec.toNat_append, BitVec.toNat_ofNat, Nat.mod_eq_of_lt (by omega : retry.val < 2 ^ 4),
    ← Nat.shiftLeft_add_eq_or_of_lt (by omega : retry.val < 2 ^ 4), Nat.shiftLeft_eq]
  ring

/-- The policy code as a number (R144). -/
theorem policy_code (p : Policy) : p.code = if p = .each then 1 else 0 := by
  cases p <;> rfl

/-- A port byte, by its port (R144). -/
theorem portByte_eq (p : Option Port) : portByte p = (p.map fun g => BitVec.ofNat 8 g.val).getD 0xFF#8 := by
  cases p <;> rfl

/-- The three parts of a source's runtime state that SOURCE_READ may find absent: its line, its deferral and its
WAITING ticket (R19). -/
theorem sourceReport_parts (s : State) (src : SourceId) :
    s.sourceReport src =
      configBytes (s.config src) (((SourceId.line src).map fun n => (s.line n).recognised).getD false)
          (s.liveCount src)
        ++ [byteOf (((s.deferralOf src).map Deferral.count).getD 0)]
        ++ ((s.waitingTicket src).map fun i => wordBytes (handleWord (s.handleOf i) 0)).getD noHandle := by
  unfold State.sourceReport
  cases SourceId.line src <;> cases s.deferralOf src <;> cases s.waitingTicket src <;> rfl

/-- The recognised level that SOURCE_READ gives: that of the source's line, and low for a source without one. -/
theorem recognised_iff (s : State) (src : SourceId) :
    ((SourceId.line src).map fun n => (s.line n).recognised).getD false = true
      ↔ ∃ n : LineId, lineSource n = src ∧ (s.line n).recognised = true := by
  simp only [← line_eq_some]
  cases SourceId.line src <;> simp

/-- The oldest WAITING ticket of a source is the first of them in the creation order (R32). -/
theorem waitingTicket_eq_head (s : State) (src : SourceId) :
    s.waitingTicket src = (s.pool.order.filter (s.waitsFor src)).head? :=
  List.head?_filter.symm

/-- The data of SOURCE_READ, byte by byte (R19, R146). -/
theorem sourceReport_eq (s : State) (src : SourceId) :
    s.sourceReport src =
      [BitVec.ofNat 8 ((s.config src).level.val
          + (if ∃ n : LineId, lineSource n = src ∧ (s.line n).recognised = true then 128 else 0)),
        BitVec.ofNat 8 (2 * s.liveCount src + if (s.config src).policy = .each then 1 else 0),
        BitVec.ofNat 8 (s.config src).eligible.toNat,
        ((s.config src).preferred.map fun g => BitVec.ofNat 8 g.val).getD 0xFF#8]
      ++ bytesOf16 (s.config src).window.toNat
      ++ bytesOf16 (16 * (s.config src).serviceLimit.toNat + (s.config src).retryLimit.val)
      ++ [BitVec.ofNat 8 (16 * (s.config src).sense.code + (s.config src).filter.val),
          BitVec.ofNat 8 (((s.deferralOf src).map Deferral.count).getD 0)]
      ++ ((s.pool.order.filter (s.waitsFor src)).head?.map fun i =>
            bytesOf16 (wireWord (s.handleOf i) 0)).getD noHandle := by
  rw [sourceReport_parts, waitingTicket_eq_head, configBytes, levelByte_eq, policy_code, portByte_eq, wordBytes_eq,
    wordBytes_eq, limitWord_toNat, ← BitVec.ofNat_toNat]
  simp only [recognised_iff, wordBytes_handleWord _ (show 0 < 64 by decide), byteOf, List.append_assoc,
    List.cons_append, List.nil_append]

/-- SOURCE_READ at a DETACHED port is answered NOT_ATTACHED (R19). -/
theorem exec_sourceRead_of_detached {h : Port} {s : State} (hd : (s.port h).state = .detached)
    (tag source : Byte) : exec (.sourceRead h tag source) s = .next (s.answer h tag .notAttached []) :=
  congrArg _ (ifAttached_of_detached hd tag _)

/-- SOURCE_READ of a number that names no source is answered BAD_ARG (R19). -/
theorem exec_sourceRead_of_badArg {h : Port} {source : Byte} {s : State} (ha : (s.port h).state = .attached)
    (hs : 48 < source.toNat) (tag : Byte) :
    exec (.sourceRead h tag source) s = .next (s.answer h tag .badArg []) := by
  simp [exec, execSourceRead, ifAttached_of_attached ha, sourceOfByte_eq_none.2 hs]

/-- SOURCE_READ of a source is answered OK with its report (R19). -/
theorem exec_sourceRead_of_source {h : Port} {source : Byte} {src : SourceId} {s : State}
    (ha : (s.port h).state = .attached) (hs : source.toNat = src.val) (tag : Byte) :
    exec (.sourceRead h tag source) s = .next (s.answer h tag .ok (s.sourceReport src)) := by
  simp [exec, execSourceRead, ifAttached_of_attached ha, sourceOfByte_eq_some.2 hs]

/-- Whatever SOURCE_READ answers, it answers to the state as it stands (R19). -/
theorem exec_sourceRead_answers (h : Port) (tag source : Byte) (s : State) :
    ∃ (st : Status) (d : List Byte), exec (.sourceRead h tag source) s = .next (s.answer h tag st d) := by
  cases hp : (s.port h).state with
  | detached => exact ⟨_, _, exec_sourceRead_of_detached hp tag source⟩
  | attached =>
    by_cases hs : 48 < source.toNat
    · exact ⟨_, _, exec_sourceRead_of_badArg hp hs tag⟩
    · exact ⟨_, _, exec_sourceRead_of_source (src := ⟨source.toNat, by omega⟩) hp rfl tag⟩

/-- Settles O40: SOURCE_READ is one answer to an unchanged state, whose bytes are those of the report. -/
theorem sourceReadReportsRecord : Obligations.SourceReadReportsRecord := by
  intro h tag source s
  obtain ⟨t, ht⟩ : ∃ t : State, exec (.sourceRead h tag source) s = .next t := ⟨_, rfl⟩
  obtain ⟨st, d, hanswer⟩ := exec_sourceRead_answers h tag source s
  refine ⟨t, ht, (answers_of_next ht hanswer).1, fun hd => ?_, fun ha hs => ?_, config_faultSource s,
    fun src ha hs => ?_⟩
  · exact (answers_of_next ht (exec_sourceRead_of_detached hd tag source)).2
  · exact (answers_of_next ht (exec_sourceRead_of_badArg ha hs tag)).2
  · have hok := (answers_of_next ht (exec_sourceRead_of_source ha hs tag)).2
    rw [sourceReport_eq] at hok
    exact hok

/-! ## The occurrence rule -/

section
variable {s : State} {src : SourceId}

/-- Case 3 of R9 takes an occurrence of an enabled source with a WAITING ticket. -/
theorem occurrenceCase_of_waiting {i : SlotId} (hl : (s.config src).level ≠ 0) (hp : SourceId.posted src = false)
    (hw : s.waitingTicket src = some i) : s.occurrenceCase src = .coalesced i := by
  simp [State.occurrenceCase, hl, hp, hw]

/-- Case 4 of R9 takes it where the source has no WAITING ticket and is deferred. -/
theorem occurrenceCase_of_deferral {d : Deferral} (hl : (s.config src).level ≠ 0)
    (hp : SourceId.posted src = false) (hw : s.waitingTicket src = none) (hd : s.deferralOf src = some d) :
    s.occurrenceCase src = .counted d := by
  simp [State.occurrenceCase, hl, hp, hw, hd]

/-- Case 5 of R9 takes it where the source has neither and a slot is free. -/
theorem occurrenceCase_of_free {i : SlotId} (hl : (s.config src).level ≠ 0) (hp : SourceId.posted src = false)
    (hw : s.waitingTicket src = none) (hd : s.deferralOf src = none) (hi : s.lowestFree = some i) :
    s.occurrenceCase src = .created i := by
  simp [State.occurrenceCase, hl, hp, hw, hd, hi]

/-- Case 6 of R9 takes it where the source has neither and no slot is free. -/
theorem occurrenceCase_of_full (hl : (s.config src).level ≠ 0) (hp : SourceId.posted src = false)
    (hw : s.waitingTicket src = none) (hd : s.deferralOf src = none) (hf : s.lowestFree = none) :
    s.occurrenceCase src = .deferred := by
  simp [State.occurrenceCase, hl, hp, hw, hd, hf]

/-- What case 3 of R9 does. -/
theorem occurrence_of_coalesced {i : SlotId} {u : Ticket} (hc : s.occurrenceCase src = .coalesced i)
    (hu : s.ticketAt i = some u) (p : BitVec 16) :
    s.occurrence src p = s.setTicket i { u with count := min (u.count + 1) 255 } := by
  simp [State.occurrence, hc, State.coalesce, hu, saturate, Config.maxCount]

/-- What case 4 of R9 does. -/
theorem occurrence_of_counted {d : Deferral} (hc : s.occurrenceCase src = .counted d) (p : BitVec 16) :
    s.occurrence src p = s.setDeferral src (some { d with count := min (d.count + 1) 255 }) := by
  simp [State.occurrence, hc, saturate, Config.maxCount]

/-- What case 5 of R9 does. -/
theorem occurrence_of_created {i : SlotId} (hc : s.occurrenceCase src = .created i) (p : BitVec 16) :
    s.occurrence src p = s.createTicket i src 1 s.timebase none := by
  simp [State.occurrence, hc]

/-- What case 6 of R9 does. -/
theorem occurrence_of_deferred (hc : s.occurrenceCase src = .deferred) (p : BitVec 16) :
    s.occurrence src p = s.setDeferral src (some { count := 1, stamp := s.timebase }) := by
  simp [State.occurrence, hc]

/-- An occurrence of a source that is not posted is taken by the first case of R9 that applies. -/
theorem occurrence_occurs (hp : SourceId.posted src = false) : Occurs s (s.occurrence src) src := by
  refine ⟨occurrence_onlyPool s src 0, fun hl => ?_, fun hl => ⟨fun i hw u hu => ?_, fun hw =>
    ⟨fun d hd => ?_, fun hd => ⟨fun i hi hlow => ?_, fun hfull => ?_⟩⟩⟩⟩
  · rw [occurrence_of_disabled hl]
  · rw [occurrence_of_coalesced (occurrenceCase_of_waiting hl hp hw) hu]
    exact ⟨fun j => State.setTicket_slotAt s i j _, rfl, rfl⟩
  · rw [occurrence_of_counted (occurrenceCase_of_deferral hl hp hw hd)]
    rfl
  · rw [occurrence_of_created (occurrenceCase_of_free hl hp hw hd (lowestFree_eq_some.2 ⟨hi, hlow⟩))]
    exact ⟨fun j => createTicket_slotAt s i j src 1 s.timebase none, rfl, rfl⟩
  · rw [occurrence_of_deferred (occurrenceCase_of_full hl hp hw hd (lowestFree_eq_none.2 hfull))]
    rfl

end

/-! ## TRIGGER -/

/-- TRIGGER takes the edge-sensed line sources and the timer sources alone (R17). -/
theorem triggerable_iff {s : State} {src : SourceId} :
    s.triggerable src = true
      ↔ src.val < 40 ∧ ((s.config src).sense.activeLevel = none ∨ 32 ≤ src.val) := by
  unfold State.triggerable SourceId.line SourceId.isTimer
  by_cases hlt : src.val < 32
  · simp [hlt, show src.val < 40 by omega]
  · simp [hlt, show 32 ≤ src.val by omega]

/-- No source below 40 is a posted source. -/
theorem posted_of_lt {src : SourceId} (h : src.val < 40) : SourceId.posted src = false := by
  simp [SourceId.posted, h]

/-- A slot whose ticket alone changes has that ticket, and the handle it had (R22). -/
theorem ticket_and_handle_of_slotBecomes {s t : State} {i : SlotId} {u : Ticket}
    (h : SlotBecomes s t i { s.slotAt i with ticket := some u }) :
    t.ticketAt i = some u ∧ t.handleOf i = s.handleOf i := by
  have hi := h i
  rw [if_pos rfl] at hi
  simp [State.ticketAt, State.handleOf, hi]

/-- A pool in which the deferral of a source alone is replaced holds that deferral. -/
theorem deferralOf_of_pool {s t : State} {src : SourceId} {d : Option Deferral}
    (h : t.pool = { s.pool with deferrals := place s.pool.deferrals src d }) : t.deferralOf src = d := by
  rw [State.deferralOf, h, look_place_same]

/-- The TRIGGER report of cases 3 and 5: the handle of the WAITING ticket and its count after the occurrence
(R17). -/
theorem triggerReport_of_ticket {s t : State} {i : SlotId} {u : Ticket} {c : OccurrenceCase} (src : SourceId)
    (hc : c = .coalesced i ∨ c = .created i) (h : SlotBecomes s t i { s.slotAt i with ticket := some u }) :
    t.triggerReport src c
      = byteOf c.number :: (bytesOf16 (wireWord (s.handleOf i) 0) ++ [BitVec.ofNat 8 u.count]) := by
  obtain ⟨hticket, hhandle⟩ := ticket_and_handle_of_slotBecomes h
  rcases hc with rfl | rfl <;>
    simp [State.triggerReport, hticket, hhandle, wordBytes_handleWord, byteOf]

/-- The TRIGGER report of cases 4 and 6: no handle, and the deferred count after the occurrence (R17). -/
theorem triggerReport_of_deferral {t : State} {src : SourceId} {e : Deferral} {c : OccurrenceCase}
    (hc : (∃ d, c = .counted d) ∨ c = .deferred) (he : t.deferralOf src = some e) :
    t.triggerReport src c = [byteOf c.number, 0xFF, 0xFF, BitVec.ofNat 8 e.count] := by
  rcases hc with ⟨d, rfl⟩ | rfl <;> simp [State.triggerReport, he, noHandle, byteOf]

/-- The state after a TRIGGER that R17 hands to the occurrence rule. -/
def State.triggered (s : State) (h : Port) (tag : Byte) (src : SourceId) : State :=
  (s.occurrence src).recompute.answer h tag .ok ((s.occurrence src).triggerReport src (s.occurrenceCase src))

theorem triggered_answered (s : State) (h : Port) (tag : Byte) (src : SourceId) :
    (s.triggered h tag src).Answered h tag .ok ((s.occurrence src).triggerReport src (s.occurrenceCase src)) :=
  answered_answer ..

/-- A TRIGGER changes the pool and the ports alone: no line, no filter and no timer (R17). -/
theorem triggered_frame (s : State) (h : Port) (tag : Byte) (src : SourceId) :
    s.triggered h tag src = { s with pool := (s.triggered h tag src).pool, ports := (s.triggered h tag src).ports } :=
  have hpool := occurrence_onlyPool s src 0
  State.ext_fields hpool.timebase hpool.sources hpool.faultLevel hpool.lines rfl rfl hpool.timers hpool.token
    hpool.faults hpool.pending

/-- Of the ports a TRIGGER changes the ATTN lines and the response slot of the issuing port alone. -/
theorem triggered_portsBecome (s : State) (h : Port) (tag : Byte) (src : SourceId) :
    PortsBecome s (s.triggered h tag src) h (s.port h) :=
  portsBecome_of tag .ok _ (fun g => by rw [(occurrence_onlyPool s src 0).port g]; by_cases hg : g = h <;> simp [hg]) rfl

/-- TRIGGER at a DETACHED port is answered NOT_ATTACHED (R17). -/
theorem exec_trigger_of_detached {h : Port} {s : State} (hd : (s.port h).state = .detached) (tag source : Byte) :
    exec (.trigger h tag source) s = .next (s.answer h tag .notAttached []) :=
  congrArg _ (ifSupervisor_of_detached hd tag _)

/-- TRIGGER at a port that does not hold the token is answered NOT_SUPERVISOR (R17). -/
theorem exec_trigger_of_not_holder {h : Port} {s : State} (ha : (s.port h).state = .attached)
    (ht : s.token ≠ some h) (tag source : Byte) :
    exec (.trigger h tag source) s = .next (s.answer h tag .notSupervisor []) :=
  congrArg _ (ifSupervisor_of_not_holder ha ht tag _)

section
variable {h : Port} {s : State} (ha : (s.port h).state = .attached) (ht : s.token = some h)
include ha ht

/-- TRIGGER of a number above 48 is answered BAD_ARG (R17). -/
theorem exec_trigger_of_noSource {source : Byte} (hs : 48 < source.toNat) (tag : Byte) :
    exec (.trigger h tag source) s = .next (s.answer h tag .badArg []) := by
  simp [exec, execTrigger, ifSupervisor_of_holder ha ht, sourceOfByte_eq_none.2 hs]

/-- TRIGGER of a source whose occurrences stand for a condition or carry content is answered BAD_ARG (R17). -/
theorem exec_trigger_of_not_triggerable {source : Byte} {src : SourceId} (hs : source.toNat = src.val)
    (hn : s.triggerable src = false) (tag : Byte) :
    exec (.trigger h tag source) s = .next (s.answer h tag .badArg []) := by
  simp [exec, execTrigger, ifSupervisor_of_holder ha ht, sourceOfByte_eq_some.2 hs, hn]

/-- TRIGGER of a disabled source is answered DISABLED (R17). -/
theorem exec_trigger_of_disabled {source : Byte} {src : SourceId} (hs : source.toNat = src.val)
    (hr : s.triggerable src = true) (hl : (s.config src).level = 0) (tag : Byte) :
    exec (.trigger h tag source) s = .next (s.answer h tag .disabled []) := by
  simp [exec, execTrigger, ifSupervisor_of_holder ha ht, sourceOfByte_eq_some.2 hs, hr, hl]

/-- Any other TRIGGER is handed to the occurrence rule (R17). -/
theorem exec_trigger_of_enabled {source : Byte} {src : SourceId} (hs : source.toNat = src.val)
    (hr : s.triggerable src = true) (hl : (s.config src).level ≠ 0) (tag : Byte) :
    exec (.trigger h tag source) s = .next (s.triggered h tag src) := by
  simp only [exec, execTrigger, ifSupervisor_of_holder ha ht, sourceOfByte_eq_some.2 hs, hr, hl, if_false,
    Bool.true_eq_false]
  rfl

/-- TRIGGER of a number from 40 up, a posted source, source 48 or none, is answered BAD_ARG (R17). -/
theorem exec_trigger_of_ge {source : Byte} (hs : 40 ≤ source.toNat) (tag : Byte) :
    exec (.trigger h tag source) s = .next (s.answer h tag .badArg []) := by
  by_cases hn : 48 < source.toNat
  · exact exec_trigger_of_noSource ha ht hn tag
  · refine exec_trigger_of_not_triggerable ha ht (src := ⟨source.toNat, by omega⟩) rfl ?_ tag
    refine Bool.eq_false_iff.2 fun hr => ?_
    exact absurd (triggerable_iff.1 hr).1 (not_lt.2 hs)

end

/-- Settles O43: TRIGGER hands an occurrence of an enabled edge-sensed line source or timer source to the
occurrence rule, whose cases give its pool, and the ticket or deferral they leave gives its report. -/
theorem triggerMakesOccurrence : Obligations.TriggerMakesOccurrence := by
  refine ⟨fun src s hp => occurrence_occurs hp, fun h tag source s => ?_⟩
  obtain ⟨t, hnext⟩ : ∃ t : State, exec (.trigger h tag source) s = .next t := ⟨_, rfl⟩
  refine ⟨t, hnext, fun hd => answers_of_next hnext (exec_trigger_of_detached hd tag source),
    fun ha ht => answers_of_next hnext (exec_trigger_of_not_holder ha ht tag source), fun ha ht =>
    ⟨fun hs => answers_of_next hnext (exec_trigger_of_ge ha ht hs tag), fun src hs hlt =>
      ⟨fun hsense hline => ?_, fun hkind => ⟨fun hl => ?_, fun hl => ?_⟩⟩⟩⟩
  · refine answers_of_next hnext (exec_trigger_of_not_triggerable ha ht hs (Bool.eq_false_iff.2 fun hr => ?_) tag)
    rcases (triggerable_iff.1 hr).2 with hedge | htimer
    · simp [hedge] at hsense
    · omega
  · exact answers_of_next hnext (exec_trigger_of_disabled ha ht hs (triggerable_iff.2 ⟨hlt, hkind⟩) hl tag)
  · obtain rfl := Host.Outcome.next.inj
      (hnext.symm.trans (exec_trigger_of_enabled ha ht hs (triggerable_iff.2 ⟨hlt, hkind⟩) hl tag))
    have hp := posted_of_lt hlt
    have hanswer := triggered_answered s h tag src
    obtain ⟨-, -, hcases⟩ := occurrence_occurs (s := s) hp
    obtain ⟨hwaiting, hnone⟩ := hcases hl
    refine ⟨triggered_frame s h tag src, triggered_portsBecome s h tag src, fun i hw u hu => ?_, fun hw =>
      ⟨fun d hd => ?_, fun hd => ⟨fun i hi hlow => ?_, fun hfull => ?_⟩⟩⟩
    · obtain ⟨hslot, horder, hdeferrals⟩ := hwaiting i hw u hu
      rw [occurrenceCase_of_waiting hl hp hw, triggerReport_of_ticket src (.inl rfl) hslot] at hanswer
      exact ⟨hslot, horder, hdeferrals, hanswer⟩
    · have hpool := (hnone hw).1 d hd
      rw [occurrenceCase_of_deferral hl hp hw hd, triggerReport_of_deferral (.inl ⟨d, rfl⟩)
        (deferralOf_of_pool hpool)] at hanswer
      exact ⟨hpool, hanswer⟩
    · obtain ⟨hslot, horder, hdeferrals⟩ := ((hnone hw).2 hd).1 i hi hlow
      rw [occurrenceCase_of_free hl hp hw hd (lowestFree_eq_some.2 ⟨hi, hlow⟩),
        triggerReport_of_ticket src (.inr rfl) hslot] at hanswer
      exact ⟨hslot, horder, hdeferrals, hanswer⟩
    · have hpool := ((hnone hw).2 hd).2 hfull
      rw [occurrenceCase_of_full hl hp hw hd (lowestFree_eq_none.2 hfull),
        triggerReport_of_deferral (.inr rfl) (deferralOf_of_pool hpool)] at hanswer
      exact ⟨hpool, hanswer⟩

end Sys2Proof.Machine
end

section
/-! SUPPORT. The flush of the Ticket Pool: an emptied pool filled from slot 0 upward (R38, R124, R125). -/

namespace Sys2Proof.Machine

/-! ## The emptied part -/

/-- The state in the middle of a flush: every slot FREE, every stack empty, nothing re-armed yet (R38, R124). -/
def State.emptied (s : State) : State := { s with pool := s.pool.flushed, ports := s.flushedPorts }

@[simp] theorem emptied_timebase (s : State) : s.emptied.timebase = s.timebase := by
  rw [State.emptied]

@[simp] theorem emptied_config (s : State) (src : SourceId) : s.emptied.config src = s.config src := by
  rw [State.emptied]
  simp only [State.config, State.faultRecordOf, State.tokenSet]

/-- A port after the clearing part of a flush (R124). -/
theorem emptied_port (s : State) (g : Port) :
    s.emptied.port g = { s.port g with stack := [], flushed := (s.port g).flushed || s.attached g } :=
  look_fill _ g

/-- A slot after the clearing part of a flush (R38). -/
theorem emptied_slotAt (s : State) (i : SlotId) :
    s.emptied.slotAt i =
      { generation := (s.slotAt i).generation + if (s.ticketAt i).isSome then 1 else 0, ticket := none } := by
  have hslot : s.emptied.slotAt i =
      { generation := if (s.ticketAt i).isSome then (s.slotAt i).generation + 1 else (s.slotAt i).generation
        ticket := none } := look_fill _ i
  rw [hslot]
  split
  · rfl
  · rw [add_zero]

/-- No deferral outlives a flush (R38). -/
theorem emptied_deferralOf (s : State) (src : SourceId) : s.emptied.deferralOf src = none :=
  look_replicate none src

/-- A flush detaches no port, so that a ticket created at its end is the one the state before it gives. -/
theorem emptied_newTicket (s : State) (src : SourceId) :
    s.emptied.newTicket src 1 s.emptied.timebase none = s.newTicket src 1 s.timebase none := by
  have hattached (g : Port) : s.emptied.attached g = s.attached g := by simp [State.attached, emptied_port]
  simp only [State.newTicket, State.reservationFor, hattached, emptied_config, emptied_timebase]

/-! ## The sources re-armed at the end of a flush -/

/-- The source has an occurrence at the end of a flush: it is enabled, and it is a level-sensed source whose line
is active or source 48 with a record in the queue (R125). -/
def State.rearmedByFlush (s : State) (src : SourceId) : Bool :=
  decide ((s.config src).level ≠ 0)
    && (s.lineActive src || (src == faultSource && !s.faults.records.isEmpty))

/-- A flush leaves the sources, the lines and the fault queue as they are, and with them what it re-arms. -/
theorem emptied_rearmedByFlush (s : State) : s.emptied.rearmedByFlush = s.rearmedByFlush := by
  funext src
  simp only [State.rearmedByFlush, State.lineActive, State.line, emptied_config]
  rw [State.emptied]

/-- The part of one source in the end of a flush. -/
def State.flushStep (s : State) (src : SourceId) : State :=
  if s.rearmedByFlush src then s.occurrence src else s

/-- The sources that a flush goes through, in its order: the line sources, and source 48 last (R125). -/
def flushSources : List SourceId := (List.finRange 32).map lineSource ++ [faultSource]

/-- A source that is no line source has no line to be active. -/
theorem lineActive_of_ge {s : State} {src : SourceId} (h : 32 ≤ src.val) : s.lineActive src = false := by
  simp [State.lineActive, SourceId.line, Nat.not_lt.2 h]

/-- The re-arm occurrence of a line is the part of its source. -/
theorem flushRearm_eq_flushStep (s : State) (n : LineId) : s.flushRearm n = s.flushStep (lineSource n) := by
  have hne : lineSource n ≠ faultSource := Fin.ne_of_lt (show n.val < 48 by omega)
  simp [State.flushRearm, State.flushStep, State.heldActive, State.rearmedByFlush, hne]

/-- The last act of a flush is the part of source 48; a disabled source 48 discards the occurrence (R9). -/
theorem flushFault_eq_flushStep (s : State) :
    (if s.faults.records.isEmpty then s else s.occurrence faultSource) = s.flushStep faultSource := by
  have hline : s.lineActive faultSource = false := lineActive_of_ge (by decide)
  by_cases hl : (s.config faultSource).level = 0
  · simp [State.flushStep, State.rearmedByFlush, hl, occurrence_of_disabled hl]
  · cases hr : s.faults.records.isEmpty <;> simp [State.flushStep, State.rearmedByFlush, hline, hl, hr]

/-- A flush empties the part and goes through its sources once (R124, R125). -/
theorem flush_eq (s : State) : s.flush = (flushSources.foldl State.flushStep s.emptied).recompute := by
  have hlines (t : State) : ((List.finRange 32).map lineSource).foldl State.flushStep t =
      (List.finRange 32).foldl State.flushRearm t := by
    rw [List.foldl_map]
    exact congrArg (fun f => List.foldl f t _) (funext fun u => funext fun n => (flushRearm_eq_flushStep u n).symm)
  rw [flushSources, List.foldl_append, hlines, List.foldl_cons, List.foldl_nil, ← flushFault_eq_flushStep,
    State.flush, State.emptied]

/-- The sources between the line sources and source 48 are never re-armed by a flush. -/
theorem filter_rearmedByFlush (s : State) :
    (List.finRange 49).filter s.rearmedByFlush = flushSources.filter s.rearmedByFlush := by
  have hsplit : List.finRange 49 =
      (List.finRange 32).map lineSource
        ++ (((List.finRange 49).filter fun src => decide (32 ≤ src.val ∧ src.val < 48)) ++ [faultSource]) := by
    decide +kernel
  have hmiddle : ((List.finRange 49).filter fun src => decide (32 ≤ src.val ∧ src.val < 48)).filter
      s.rearmedByFlush = [] := by
    refine List.filter_eq_nil_iff.2 fun src hsrc => ?_
    obtain ⟨hge, hlt⟩ := of_decide_eq_true (List.mem_filter.1 hsrc).2
    have hne : src ≠ faultSource := fun h => by subst h; exact absurd hlt (by decide)
    simp [State.rearmedByFlush, lineActive_of_ge hge, hne]
  rw [hsplit, flushSources, List.filter_append, List.filter_append, List.filter_append, hmiddle, List.nil_append]

/-! ## A pool filled from slot 0 upward -/

/-- From e, which has no ticket, to t the sources of a list have one new ticket each, in slots 0 upward. -/
structure FilledFrom (e t : State) (srcs : List SourceId) : Prop where
  onlyPool : OnlyPool e t
  deferral : ∀ src : SourceId, t.deferralOf src = none
  order : t.pool.order.map Fin.val = List.range srcs.length
  slot : ∀ i : SlotId, t.slotAt i =
    { generation := (e.slotAt i).generation
      ticket := srcs[i.val]?.map fun src => e.newTicket src 1 e.timebase none }

/-- The emptied part is filled with nothing. -/
theorem emptied_filledFrom (s : State) : FilledFrom s.emptied s.emptied [] where
  onlyPool := .refl _
  deferral := emptied_deferralOf s
  order := rfl
  slot i := by rw [emptied_slotAt]; rfl

/-- A WAITING ticket that a source has is a live ticket of that source. -/
theorem source_of_waitsFor {s : State} {src : SourceId} {i : SlotId} (h : s.waitsFor src i = true) :
    ∃ u, s.ticketAt i = some u ∧ u.source = src := by
  unfold State.waitsFor at h
  split at h
  · next u hu => exact ⟨u, hu, by simp_all⟩
  · simp at h

section
variable {e t : State} {srcs : List SourceId} (h : FilledFrom e t srcs)
include h

theorem FilledFrom.ticketAt (i : SlotId) :
    t.ticketAt i = srcs[i.val]?.map fun src => e.newTicket src 1 e.timebase none := by
  rw [State.ticketAt, h.slot i]

/-- A source outside the list has no WAITING ticket. -/
theorem FilledFrom.waitingTicket {src : SourceId} (hsrc : src ∉ srcs) : t.waitingTicket src = none := by
  refine List.find?_eq_none.2 fun i _ hwaits => ?_
  obtain ⟨u, hu, hsource⟩ := source_of_waitsFor hwaits
  rw [h.ticketAt, Option.map_eq_some_iff] at hu
  obtain ⟨other, hother, rfl⟩ := hu
  exact hsrc (hsource ▸ List.mem_of_getElem? hother)

/-- The slot after the last filled one is the lowest free slot. -/
theorem FilledFrom.nextFree (i : SlotId) (hi : i.val = srcs.length) :
    t.ticketAt i = none ∧ ∀ k : SlotId, k < i → (t.ticketAt k).isSome = true := by
  refine ⟨by simp [h.ticketAt, hi], fun k hk => ?_⟩
  have hlt : k.val < srcs.length := hi ▸ hk
  simp [h.ticketAt, hlt]

/-- An occurrence of one more enabled source fills the next slot (case 5 of R9). -/
theorem FilledFrom.occurrence {src : SourceId} (hsrc : src ∉ srcs) (hp : SourceId.posted src = false)
    (hl : (e.config src).level ≠ 0) (hroom : srcs.length < 64) :
    FilledFrom e (t.occurrence src) (srcs ++ [src]) := by
  obtain ⟨-, -, hcases⟩ := occurrence_occurs (s := t) hp
  obtain ⟨-, hnone⟩ := hcases (by rwa [h.onlyPool.config])
  obtain ⟨hfree, hbelow⟩ := h.nextFree ⟨srcs.length, hroom⟩ rfl
  obtain ⟨hslot, horder, hdeferrals⟩ :=
    ((hnone (h.waitingTicket hsrc)).2 (h.deferral src)).1 _ hfree hbelow
  refine ⟨h.onlyPool.trans (occurrence_onlyPool t src 0), fun other => ?_, ?_, fun j => ?_⟩
  · rw [State.deferralOf, hdeferrals]
    exact h.deferral other
  · rw [horder, List.map_append, h.order, List.length_append, List.length_singleton, List.range_succ]
    rfl
  · rw [hslot j, h.slot, h.slot, h.onlyPool.newTicket, h.onlyPool.timebase]
    rcases eq_or_ne j ⟨srcs.length, hroom⟩ with rfl | hj
    · simp
    · have hne : j.val ≠ srcs.length := fun hval => hj (Fin.ext hval)
      rw [if_neg hj, List.getElem?_append]
      split
      · rfl
      · rw [List.getElem?_eq_none (l := srcs) (by omega),
          List.getElem?_eq_none (by rw [List.length_singleton]; omega)]

/-- The part of one more source fills the next slot exactly when a flush re-arms it. -/
theorem FilledFrom.flushStep {src : SourceId} (hsrc : src ∉ srcs) (hp : SourceId.posted src = false)
    (hroom : srcs.length < 64) :
    FilledFrom e (t.flushStep src) (srcs ++ [src].filter e.rearmedByFlush) := by
  have hsame : t.rearmedByFlush src = e.rearmedByFlush src := by
    simp only [State.rearmedByFlush, h.onlyPool.config, h.onlyPool.lineActive, h.onlyPool.faults]
  rw [State.flushStep, hsame]
  cases hr : e.rearmedByFlush src with
  | false => simpa [hr] using h
  | true =>
    have hl : (e.config src).level ≠ 0 := of_decide_eq_true (Bool.and_eq_true_iff.1 hr).1
    simpa [hr] using h.occurrence hsrc hp hl hroom

end

/-- The parts of a list of sources fill the slots in the list's order. -/
theorem FilledFrom.foldl {e t : State} {srcs : List SourceId} (h : FilledFrom e t srcs) {l : List SourceId}
    (hnodup : (srcs ++ l).Nodup) (hp : ∀ src ∈ l, SourceId.posted src = false)
    (hroom : (srcs ++ l).length ≤ 64) :
    FilledFrom e (l.foldl State.flushStep t) (srcs ++ l.filter e.rearmedByFlush) := by
  induction l generalizing t srcs with
  | nil => simpa using h
  | cons src l ih =>
    have hsub : (srcs ++ [src].filter e.rearmedByFlush ++ l).Sublist (srcs ++ src :: l) := by
      rw [List.append_assoc, ← List.singleton_append (l := l)]
      exact (List.filter_sublist.append_right l).append_left srcs
    have hsrc : src ∉ srcs := fun hmem => List.disjoint_of_nodup_append hnodup hmem List.mem_cons_self
    have hlength : srcs.length < 64 := by simp at hroom; omega
    have hstep := ih (h.flushStep hsrc (hp src List.mem_cons_self) hlength) (hnodup.sublist hsub)
      (fun other hmem => hp other (List.mem_cons_of_mem _ hmem)) (hsub.length_le.trans hroom)
    rwa [List.append_assoc, ← List.filter_append] at hstep

/-- A flush fills the emptied pool with the sources it re-arms, in ascending order (R125). -/
theorem flush_filledFrom (s : State) :
    FilledFrom s.emptied (flushSources.foldl State.flushStep s.emptied)
      ((List.finRange 49).filter s.rearmedByFlush) := by
  rw [filter_rearmedByFlush, ← emptied_rearmedByFlush]
  have hfilled := (emptied_filledFrom s).foldl (l := flushSources) (by decide +kernel) (by decide +kernel)
    (by decide +kernel)
  rwa [List.nil_append] at hfilled

/-! ## FLUSH -/

/-- The number of live tickets counts the slots that are not FREE. -/
theorem liveTickets_eq_countP (s : State) :
    s.liveTickets = (List.finRange 64).countP fun i => (s.ticketAt i).isSome := by
  have hsum := List.length_eq_countP_add_countP s.isFree (l := List.finRange 64)
  have hlive : (fun i => decide ¬ s.isFree i = true) = fun i => (s.ticketAt i).isSome := by
    funext i
    cases hi : s.ticketAt i <;> simp [State.isFree, hi]
  rw [List.length_finRange, hlive] at hsum
  rw [State.liveTickets, State.freeSlots]
  omega

@[simp] theorem recompute_slotAt (s : State) (i : SlotId) : s.recompute.slotAt i = s.slotAt i := rfl

/-- FLUSH by the token holder is answered OK with the numbers of tickets and deferrals it ends (R124). -/
theorem exec_flush_of_holder {h : Port} {s : State} (ha : (s.port h).state = .attached) (ht : s.token = some h)
    (tag : Byte) :
    exec (.flush h tag) s =
      .next ((flushSources.foldl State.flushStep s.emptied).recompute.answer h tag .ok
        [byteOf s.liveTickets, byteOf s.deferredSources]) := by
  rw [exec, execFlush, ifSupervisor_of_holder ha ht, flush_eq]

/-- Settles O41: a flush empties the part, and the occurrences at its end, one a source at most and none of a
posted source, find a free slot each and so fill the slots from 0 upward. -/
theorem flushFreesAndRearms : Obligations.FlushFreesAndRearms := by
  intro h tag s again ha ht hagain
  have hfilled : FilledFrom s.emptied (flushSources.foldl State.flushStep s.emptied) again :=
    hagain ▸ flush_filledFrom s
  have hnext := exec_flush_of_holder ha ht tag
  generalize flushSources.foldl State.flushStep s.emptied = u at hfilled hnext
  have hframe := hfilled.onlyPool
  refine ⟨_, hnext, ?_, hfilled.deferral, hfilled.order, fun i => ?_, fun g => ?_, ?_⟩
  · exact State.ext_fields hframe.timebase hframe.sources hframe.faultLevel hframe.lines rfl rfl hframe.timers
      hframe.token hframe.faults hframe.pending
  · rw [answer_slotAt, recompute_slotAt, hfilled.slot i, emptied_slotAt]
    simp only [emptied_newTicket]
  · have hport : u.port g = _ := (hframe.port g).trans (emptied_port s g)
    rw [answer_slot, answer_offer, recompute_offer, State.answer_port]
    by_cases hg : g = h
    · subst hg
      simp [hport, State.attached]
    · simp [hg, hport, State.attached]
  · rw [← liveTickets_eq_countP]
    exact answered_answer ..

end Sys2Proof.Machine
end

section
/-! SUPPORT. The pending order, candidates and offers, and the commands that report or take the offer: PEEK, CLAIM
and CLAIM_HANDLE (R28, R40, R41, R49 to R55). -/

namespace Sys2Proof.Machine

/-! ## Words about tickets -/

theorem waits_iff {u : Ticket} : u.waits = true ↔ u.standing = .waiting := by
  simp [Ticket.waits]

theorem serviceLevel_eq (s : State) (h : Port) :
    s.serviceLevel h = ((s.port h).stack.head?.map fun e => e.level).getD 0 := by
  unfold State.serviceLevel
  cases (s.port h).stack <;> rfl

/-! ## Sets of hosts -/

/-- The set of the token holder has the holder as its only member (R2). -/
theorem has_tokenSet {s : State} {h : Port} : HostSet.has s.tokenSet h = true ↔ s.token = some h := by
  unfold State.tokenSet
  cases s.token with
  | none => simp [HostSet.has]
  | some g => simp [eq_comm]

/-- Membership after the hosts of a list that meet a test are added. -/
theorem has_foldl_add (p : Port → Bool) (l : List Port) (S : HostSet) (g : Port) :
    HostSet.has (l.foldl (fun S h => if p h then HostSet.add S h else S) S) g
      = (HostSet.has S g || (decide (g ∈ l) && p g)) := by
  induction l generalizing S with
  | nil => simp
  | cons h l ih =>
    rw [List.foldl_cons, ih]
    by_cases hg : g = h
    · subst hg
      cases hp : p g <;> simp
    · cases hp : p h <;> simp [hg]

/-- Membership in the set of the hosts that meet a test. -/
@[simp] theorem has_collect (p : Port → Bool) (g : Port) : HostSet.has (HostSet.collect p) g = p g := by
  have hnone : HostSet.has 0 g = false := by simp [HostSet.has]
  rw [HostSet.collect, has_foldl_add, hnone]
  simp

/-! ## The pending order -/

/-- A level of the pending order takes in the WAITING and the SPREAD tickets of that level (R28). -/
theorem pendingAt_iff {s : State} {level : Nat} {i : SlotId} :
    s.pendingAt level i = true
      ↔ ∃ u ∈ s.ticketAt i, (u.waits = true ∨ u.inRound = true) ∧ u.level.val = level := by
  unfold State.pendingAt
  cases s.ticketAt i with
  | none => simp
  | some u => cases hu : u.standing <;> simp [Ticket.waits, Ticket.inRound, hu]

/-- The pending order holds every WAITING and every SPREAD ticket (R28). -/
theorem mem_pendingOrder {s : State} (ho : s.OrderLaw) {i : SlotId} {u : Ticket} (hu : s.ticketAt i = some u)
    (hp : u.waits = true ∨ u.inRound = true) : i ∈ s.pendingOrder := by
  have hi : i ∈ s.pool.order := (ho.2 i).2 (by rw [hu]; rfl)
  simp only [State.pendingOrder, List.mem_flatMap, List.mem_reverse, List.mem_range, List.mem_filter]
  exact ⟨u.level.val, u.level.isLt, hi, pendingAt_iff.2 ⟨u, hu, hp, rfl⟩⟩

/-- The ticket in slot i is of a higher level than the one in slot j, or of its level and no younger (R28). -/
def State.NotBehind (s : State) (i j : SlotId) : Prop :=
  ∀ u ∈ s.ticketAt i, ∀ v ∈ s.ticketAt j,
    v.level < u.level ∨ (v.level = u.level ∧ s.pool.order.idxOf i ≤ s.pool.order.idxOf j)

theorem notBehind_refl (s : State) (i : SlotId) : s.NotBehind i i := fun _ hu _ hv =>
  .inr ⟨congrArg Ticket.level (Option.mem_unique hv hu), le_rfl⟩

/-- The members of a list without repetition stand in the order of their first positions. -/
theorem pairwise_idxOf_le {l : List SlotId} (hl : l.Nodup) :
    l.Pairwise fun i j => l.idxOf i ≤ l.idxOf j := by
  rw [List.pairwise_iff_getElem]
  intro a b ha hb hab
  rw [hl.idxOf_getElem a ha, hl.idxOf_getElem b hb]
  exact hab.le

/-- The pending order puts the highest level first, and the oldest first within a level (R28). -/
theorem pendingOrder_pairwise {s : State} (ho : s.OrderLaw) : s.pendingOrder.Pairwise s.NotBehind := by
  have hlevel {level : Nat} {i : SlotId} (hi : i ∈ s.pool.order.filter (s.pendingAt level)) (u : Ticket)
      (hu : u ∈ s.ticketAt i) : u.level.val = level := by
    obtain ⟨v, hv, -, hval⟩ := pendingAt_iff.1 (List.mem_filter.1 hi).2
    rwa [Option.mem_unique hu hv]
  refine List.pairwise_flatMap.2 ⟨fun level _ => ?_, ?_⟩
  · refine ((pairwise_idxOf_le ho.1).filter _).imp_of_mem fun hi hj hle u hu v hv => .inr ⟨?_, hle⟩
    exact Fin.ext ((hlevel hj v hv).trans (hlevel hi u hu).symm)
  · refine (List.pairwise_reverse.2 List.pairwise_lt_range).imp fun hlt i hi j hj u hu v hv => .inl ?_
    rw [Fin.lt_def, hlevel hi u hu, hlevel hj v hv]
    exact hlt

/-! ## Candidates -/

/-- Condition 2 of R40: the host may be offered a WAITING ticket, or is owed a SPREAD ticket it has not claimed. -/
theorem entitled_iff {s : State} {h : Port} {u : Ticket} :
    s.entitled h u = true ↔
      (u.waits = true ∧ if u.source = faultSource then s.token = some h else HostSet.has u.eligible h = true)
        ∨ (u.inRound = true ∧ HostSet.has u.owed h = true ∧ HostSet.has u.claimed h = false) := by
  unfold State.entitled
  cases hu : u.standing with
  | waiting =>
    by_cases hf : u.source = faultSource <;>
      simp [Ticket.waits, Ticket.inRound, hu, State.eligibleFor, hf, has_tokenSet]
  | held g => simp [Ticket.waits, Ticket.inRound, hu]
  | spread owed claimed c => simp [Ticket.waits, Ticket.inRound, Ticket.owed, Ticket.claimed, hu]

/-- A host is entitled only to a WAITING or a SPREAD ticket. -/
theorem waits_or_inRound_of_entitled {s : State} {h : Port} {u : Ticket} (he : s.entitled h u = true) :
    u.waits = true ∨ u.inRound = true :=
  (entitled_iff.1 he).imp And.left And.left

/-- Condition 6 of R40, for the tickets that the creation order holds: every live one (R26). -/
theorem otherRound_eq_false {s : State} (ho : s.OrderLaw) {i : SlotId} {src : SourceId} :
    s.otherRound i src = false
      ↔ ∀ j : SlotId, j ≠ i → ∀ v ∈ s.ticketAt j, v.source = src → v.inRound = false := by
  have hlive {j : SlotId} {v : Ticket} (hv : s.ticketAt j = some v) : j ∈ s.pool.order :=
    (ho.2 j).2 (by rw [hv]; rfl)
  rw [State.otherRound, List.any_eq_false]
  constructor
  · intro hno j hj v hv hsrc
    have hround := hno j (hlive hv)
    rw [Option.mem_def.1 hv] at hround
    cases hu : v.standing <;> simp_all [Ticket.inRound]
  · intro hno j _
    cases hv : s.ticketAt j with
    | none => simp
    | some v =>
      have hround := fun hj => hno j hj v hv
      cases hu : v.standing <;> simp_all [Ticket.inRound]

/-- The ticket of a slot is a candidate exactly when it meets the six conditions of R40. -/
theorem candidate_iff {s : State} {h : Port} {i : SlotId} :
    s.candidate h i = true ↔
      ∃ u ∈ s.ticketAt i,
        (s.port h).state = .attached ∧ s.entitled h u = true
        ∧ ((s.port h).threshold < u.level ∧ s.serviceLevel h < u.level)
        ∧ (s.port h).stack.length < Config.stackDepth
        ∧ (∀ r ∈ u.reservation, r.host = h)
        ∧ (u.policy = .each → u.waits = true → s.otherRound i u.source = false) := by
  unfold State.candidate
  cases hi : s.ticketAt i with
  | none => simp
  | some u =>
    cases hr : u.reservation <;> cases hp : u.policy <;>
      simp [State.attached, Ticket.waits, hr, hp, and_assoc, ← imp_iff_not_or]

/-- A candidate stands in the pending order. -/
theorem mem_pendingOrder_of_candidate {s : State} (ho : s.OrderLaw) {h : Port} {i : SlotId}
    (hc : s.candidate h i = true) : i ∈ s.pendingOrder := by
  obtain ⟨u, hu, -, he, -⟩ := candidate_iff.1 hc
  exact mem_pendingOrder ho hu (waits_or_inRound_of_entitled he)

/-! ## Offers -/

/-- The first member of a list that meets a test stands, in an order the list is sorted by, at or before every
other member that does. -/
theorem rel_of_find?_eq_some {α : Type} {R : α → α → Prop} (hrefl : ∀ a, R a a) {l : List α} (hl : l.Pairwise R)
    {p : α → Bool} {a b : α} (ha : l.find? p = some a) (hb : b ∈ l) (hp : p b = true) : R a b := by
  obtain ⟨-, before, after, rfl, hbefore⟩ := List.find?_eq_some_iff_append.1 ha
  obtain ⟨-, hafter, -⟩ := List.pairwise_append.1 hl
  rcases List.mem_append.1 hb with hb | hb
  · exact absurd hp (by simpa using hbefore b hb)
  · rcases List.mem_cons.1 hb with rfl | hb
    · exact hrefl b
    · exact List.rel_of_pairwise_cons hafter hb

/-- A host with an offer is ATTACHED and has less than four entries (R40). -/
theorem state_and_room_of_offer {s : State} {h : Port} {i : SlotId} (ho : s.offer h = some i) :
    (s.port h).state = .attached ∧ (s.port h).stack.length < 4 := by
  obtain ⟨-, hattached, hroom⟩ := offer_attached ho
  exact ⟨of_decide_eq_true hattached, hroom⟩

/-- Settles O15: the pending order is sorted by level and age and holds every candidate, so that the first
candidate in it stands before every other. -/
theorem offerIsFirstCandidate : Obligations.OfferIsFirstCandidate := by
  refine ⟨fun S g p => ⟨rfl, has_only g p⟩, fun h s ho => ⟨fun i => ?_, fun i hi => ⟨?_, fun j hj => ?_⟩,
    fun hnone j => ?_⟩⟩
  · simp only [candidate_iff, entitled_iff, serviceLevel_eq, otherRound_eq_false ho, Config.stackDepth]
  · exact (offer_attached hi).1
  · exact rel_of_find?_eq_some (notBehind_refl s) (pendingOrder_pairwise ho) hi
      (mem_pendingOrder_of_candidate ho hj) hj
  · refine Bool.eq_false_iff.2 fun hj => ?_
    exact List.find?_eq_none.1 hnone j (mem_pendingOrder_of_candidate ho hj) hj

/-! ## The ticket report -/

/-- The ticket report, byte by byte (R144, R147). -/
theorem ticketReport_eq (hd : Handle) (u : Ticket) :
    ticketReport hd u =
      bytesOf16 (wireWord hd u.source.val)
        ++ [BitVec.ofNat 8 (16 * u.level.val + (if u.policy = .each then 8 else 0) + u.lapses),
            BitVec.ofNat 8 u.count]
        ++ bytesOf16 (u.payload.getD 0).toNat ++ bytesOf48 u.stamp := by
  have hsource : u.source.val < 64 := by omega
  have hpolicy : 8 * u.policy.code = if u.policy = .each then 8 else 0 := by cases u.policy <;> rfl
  rw [ticketReport, wordBytes_handleWord hd hsource, wordBytes_eq, timeBytes_eq, hpolicy]
  rfl

/-- The report of a slot is that of its ticket (R49). -/
theorem reportOf_eq {s : State} {i : SlotId} {u : Ticket} (hu : s.ticketAt i = some u) :
    s.reportOf i = ticketReport (s.handleOf i) u := by
  rw [State.reportOf, hu]

/-! ## PEEK -/

/-- PEEK at a DETACHED port is answered NOT_ATTACHED (R139). -/
theorem exec_peek_of_detached {h : Port} {s : State} (hd : (s.port h).state = .detached) (tag : Byte) :
    exec (.peek h tag) s = .next (s.answer h tag .notAttached []) :=
  congrArg _ (ifAttached_of_detached hd tag _)

/-- PEEK with four entries on the stack is answered STACK_FULL (R49). -/
theorem exec_peek_of_full {h : Port} {s : State} (ha : (s.port h).state = .attached)
    (hf : 4 ≤ (s.port h).stack.length) (tag : Byte) :
    exec (.peek h tag) s = .next (s.answer h tag .stackFull []) := by
  simp [exec, execPeek, ifAttached_of_attached ha, Config.stackDepth, hf]

/-- PEEK without an offer is answered EMPTY (R49). -/
theorem exec_peek_of_noOffer {h : Port} {s : State} (ha : (s.port h).state = .attached)
    (hr : (s.port h).stack.length < 4) (hn : s.offer h = none) (tag : Byte) :
    exec (.peek h tag) s = .next (s.answer h tag .empty []) := by
  simp [exec, execPeek, ifAttached_of_attached ha, Config.stackDepth, hr.not_ge, hn]

/-- PEEK with an offer is answered OK with its report (R49). -/
theorem exec_peek_of_offer {h : Port} {s : State} {i : SlotId} (ho : s.offer h = some i) (tag : Byte) :
    exec (.peek h tag) s = .next (s.answer h tag .ok (s.reportOf i)) := by
  obtain ⟨ha, hr⟩ := state_and_room_of_offer ho
  simp [exec, execPeek, ifAttached_of_attached ha, Config.stackDepth, hr.not_ge, ho]

/-- Whatever PEEK answers, it answers to the state as it stands (R49). -/
theorem exec_peek_answers (h : Port) (tag : Byte) (s : State) :
    ∃ (st : Status) (d : List Byte), exec (.peek h tag) s = .next (s.answer h tag st d) := by
  cases hp : (s.port h).state with
  | detached => exact ⟨_, _, exec_peek_of_detached hp tag⟩
  | attached =>
    by_cases hf : 4 ≤ (s.port h).stack.length
    · exact ⟨_, _, exec_peek_of_full hp hf tag⟩
    · cases ho : s.offer h with
      | none => exact ⟨_, _, exec_peek_of_noOffer hp (not_le.1 hf) ho tag⟩
      | some i => exact ⟨_, _, exec_peek_of_offer ho tag⟩

/-- Settles O16: PEEK is one answer to an unchanged state, which the port, its stack and its offer select. -/
theorem peekReportsOffer : Obligations.PeekReportsOffer := by
  refine ⟨ticketReport_eq, fun h tag s => ?_⟩
  obtain ⟨t, ht⟩ : ∃ t : State, exec (.peek h tag) s = .next t := ⟨_, rfl⟩
  obtain ⟨st, d, hanswer⟩ := exec_peek_answers h tag s
  refine ⟨t, ht, (answers_of_next ht hanswer).1, fun hd => ?_, fun ha hf => ?_, fun ha hr hn => ?_,
    fun i hi u hu => ?_⟩
  · exact (answers_of_next ht (exec_peek_of_detached hd tag)).2
  · exact (answers_of_next ht (exec_peek_of_full ha hf tag)).2
  · exact (answers_of_next ht (exec_peek_of_noOffer ha hr hn tag)).2
  · have hok := (answers_of_next ht (exec_peek_of_offer hi tag)).2
    rwa [reportOf_eq hu, ticketReport_eq] at hok

/-! ## The claim of an offer -/

/-- The command is a claim of the offer in slot i: CLAIM, or CLAIM_HANDLE with the offer's handle (R50, R55). -/
def State.ClaimsOffer (s : State) (h : Port) (tag : Byte) (word : BitVec 16) (i : SlotId) (c : Instr) : Prop :=
  c = .claim h tag ∨ (c = .claimHandle h tag word ∧ handleOfWord word = some (s.handleOf i))

/-- The deadline of a service limit from now (R52, R54). -/
theorem expiryAfter_eq (now : Time) (limit : BitVec 12) :
    expiryAfter now limit = if limit = 0 then none else some (now + BitVec.ofNat 48 (100 * limit.toNat)) := rfl

/-- The report of a claimed ticket is the one it had: it does not tell the ticket's state (R54). -/
theorem reportOf_claimTicket {s : State} {h : Port} {i : SlotId} {u : Ticket} :
    (s.claimTicket h i u).recompute.reportOf i = ticketReport (s.handleOf i) u := by
  have hslot : (s.claimTicket h i u).recompute.slotAt i =
      { s.slotAt i with ticket := some { u with standing := s.claimStanding h u } } := look_place_same ..
  have hticket : (s.claimTicket h i u).recompute.ticketAt i =
      some { u with standing := s.claimStanding h u } := congrArg Slot.ticket hslot
  rw [reportOf_eq hticket, State.handleOf, hslot]
  rfl

section
variable {s : State} {h : Port} {i : SlotId} {u : Ticket} (ho : s.offer h = some i) (hu : s.ticketAt i = some u)
include ho

/-- Both claim commands hand the offer to the same claim (R50, R55). -/
theorem exec_of_claimsOffer {tag : Byte} {word : BitVec 16} {c : Instr} (hc : s.ClaimsOffer h tag word i c) :
    exec c s = .next (s.claimOffer h tag i) := by
  obtain ⟨ha, hr⟩ := state_and_room_of_offer ho
  rcases hc with rfl | ⟨rfl, hword⟩
  · simp [exec, execClaim, ifAttached_of_attached ha, Config.stackDepth, hr.not_ge, ho]
  · simp [exec, execClaimHandle, ifAttached_of_attached ha, Config.stackDepth, hr.not_ge, ho, hword]

include hu

/-- Everything a claim of an offer does: the ticket's state changes, an entry is pushed, and the ticket is
reported (R51 to R54). -/
theorem claim_outcome {tag : Byte} {word : BitVec 16} {c : Instr} (hc : s.ClaimsOffer h tag word i c) :
    ∃ t : State, exec c s = .next t
      ∧ t = { s with pool := { s.pool with slots := t.pool.slots }, ports := t.ports }
      ∧ SlotBecomes s t i { s.slotAt i with ticket := some { u with standing := s.claimStanding h u } }
      ∧ PortsBecome s t h { s.port h with stack := s.claimEntry i u :: (s.port h).stack }
      ∧ t.Answered h tag .ok (ticketReport (s.handleOf i) u) := by
  have hnext := exec_of_claimsOffer ho hc
  rw [State.claimOffer, hu] at hnext
  dsimp only at hnext
  rw [reportOf_claimTicket] at hnext
  refine ⟨_, hnext, rfl, fun j => ?_, ?_, answered_answer ..⟩
  · exact State.setTicket_slotAt s i j _
  · exact portsBecome_of tag .ok _ (State.setStack_port _ h · _) rfl

end

/-- Settles O17: the claim of a WAITING SINGLE ticket makes it HELD. -/
theorem claimSingleHolds : Obligations.ClaimSingleHolds := by
  intro h tag word c s i u ho hu hwaiting hsingle hc
  have hstanding : s.claimStanding h u = .held h := by simp [State.claimStanding, hwaiting, hsingle]
  have hclaim := claim_outcome ho hu hc
  rwa [hstanding, State.claimEntry, expiryAfter_eq] at hclaim

/-- The owed set of a new round: the eligible hosts that are ATTACHED (R52). -/
theorem has_attachedOf (s : State) (S : HostSet) (g : Port) :
    HostSet.has (s.attachedOf S) g = (HostSet.has S g && decide ((s.port g).state = .attached)) :=
  has_collect _ g

/-- Settles O18: the claim of a WAITING EACH ticket makes it SPREAD. -/
theorem firstClaimOpensRound : Obligations.FirstClaimOpensRound := by
  intro h tag word c s i u ho hu hwaiting heach hc
  have hstanding : s.claimStanding h u =
      .spread (s.attachedOf u.eligible) (HostSet.only h) (expiryAfter s.timebase u.serviceLimit) := by
    simp [State.claimStanding, hwaiting, heach]
  obtain ⟨t, hnext, hframe, hslot, hports, hanswer⟩ := claim_outcome ho hu hc
  rw [hstanding] at hslot
  exact ⟨t, hnext, hframe, has_attachedOf s u.eligible, hslot, hports, hanswer⟩

/-- Settles O19: the claim of a SPREAD ticket changes its claimed set alone. -/
theorem laterClaimJoinsRound : Obligations.LaterClaimJoinsRound := by
  intro h tag word c s i u owed claimed expiry ho hu hspread hc
  have hstanding : s.claimStanding h u = .spread owed (HostSet.add claimed h) expiry := by
    simp [State.claimStanding, hspread]
  have hclaim := claim_outcome ho hu hc
  rwa [hstanding] at hclaim

end Sys2Proof.Machine
end

section
/-! SUPPORT. The threshold of a host: THRESHOLD (R65, R66). -/

namespace Sys2Proof.Machine

/-! ## THRESHOLD -/

/-- The service level is the number of the level on top of the stack, and 0 on an empty one (R64). -/
theorem serviceLevel_val (s : State) (h : Port) :
    (s.serviceLevel h).val = ((s.port h).stack.head?.map fun e => e.level.val).getD 0 := by
  rw [serviceLevel_eq]
  cases (s.port h).stack <;> rfl

/-- A new threshold leaves the service level, since the stack stays (R64, R66). -/
theorem serviceLevel_setThreshold (s : State) (h : Port) (v : Fin 16) :
    (s.setPort h { s.port h with threshold := v }).recompute.serviceLevel h = s.serviceLevel h := by
  simp [serviceLevel_eq]

/-- THRESHOLD at a DETACHED port is answered NOT_ATTACHED (R139). -/
theorem exec_threshold_of_detached {h : Port} {s : State} (hd : (s.port h).state = .detached) (tag value : Byte) :
    exec (.threshold h tag value) s = .next (s.answer h tag .notAttached []) :=
  congrArg _ (ifAttached_of_detached hd tag _)

/-- THRESHOLD with a value above 15 is answered BAD_ARG (R66). -/
theorem exec_threshold_of_badArg {h : Port} {value : Byte} {s : State} (ha : (s.port h).state = .attached)
    (hv : 15 < value.toNat) (tag : Byte) :
    exec (.threshold h tag value) s = .next (s.answer h tag .badArg []) := by
  simp [exec, execThreshold, ifAttached_of_attached ha, levelOfByte_eq_none.2 hv]

/-- THRESHOLD with a level sets the threshold, recomputes the offers, and is answered OK with the level and the
service level (R66). -/
theorem exec_threshold_of_level {h : Port} {value : Byte} {v : Fin 16} {s : State}
    (ha : (s.port h).state = .attached) (hv : value.toNat = v.val) (tag : Byte) :
    exec (.threshold h tag value) s =
      .next ((s.setPort h { s.port h with threshold := v }).recompute.answer h tag .ok
        [BitVec.ofNat 8 v.val, BitVec.ofNat 8 (s.serviceLevel h).val]) := by
  simp only [exec, execThreshold, ifAttached_of_attached ha, levelOfByte_eq_some.2 hv,
    serviceLevel_setThreshold, byteOf]

/-- Settles O27: the attachment of the port and the range of the value select the row, and the boundary of the
range lies between 15 and 16. -/
theorem thresholdSetsLevel : Obligations.ThresholdSetsLevel := by
  intro h tag value s
  obtain ⟨t, ht⟩ : ∃ t : State, exec (.threshold h tag value) s = .next t := ⟨_, rfl⟩
  refine ⟨t, ht, fun hd => ?_, fun ha hv => ?_, fun ha v hv => ?_⟩
  · exact answers_of_next ht (exec_threshold_of_detached hd tag value)
  · exact answers_of_next ht (exec_threshold_of_badArg ha hv tag)
  · obtain rfl := Host.Outcome.next.inj (ht.symm.trans (exec_threshold_of_level ha hv tag))
    rw [← serviceLevel_val]
    exact ⟨rfl, portsBecome_of tag .ok _ (State.setPort_port s h · _) rfl, answered_answer ..⟩

end Sys2Proof.Machine
end

section
/-! SUPPORT. The posted events: POST (R98, R99). -/

namespace Sys2Proof.Machine

/-! ## Counting the slots of a pool -/

/-- A test that one more index meets counts one more of them. -/
theorem countP_finRange_succ {n : Nat} {p q : Fin n → Bool} {i : Fin n} (hp : p i = false) (hq : q i = true)
    (hne : ∀ k, k ≠ i → q k = p k) : (List.finRange n).countP q = (List.finRange n).countP p + 1 := by
  have hperm := List.perm_cons_erase (List.mem_finRange i)
  have hrest : ((List.finRange n).erase i).countP q = ((List.finRange n).erase i).countP p :=
    List.countP_congr fun k hk => by rw [hne k ((List.nodup_finRange n).mem_erase_iff.1 hk).1]
  rw [hperm.countP_eq q, hperm.countP_eq p, List.countP_cons_of_pos hq, List.countP_cons_of_neg (by simp [hp]),
    hrest]

/-- The tickets of a pool after a creation. -/
theorem createTicket_ticketAt (s : State) (i j : SlotId) (src : SourceId) (c : Nat) (st : Time)
    (p : Option (BitVec 16)) :
    (s.createTicket i src c st p).ticketAt j = if j = i then some (s.newTicket src c st p) else s.ticketAt j :=
  State.setTicket_ticketAt s i j _

/-- A creation raises the non-FREE count of its source by one (R32). -/
theorem createTicket_liveCount {s : State} {i : SlotId} (hi : s.ticketAt i = none) (src : SourceId) (c : Nat)
    (st : Time) (p : Option (BitVec 16)) : (s.createTicket i src c st p).liveCount src = s.liveCount src + 1 := by
  refine countP_finRange_succ (i := i) ?_ ?_ fun k hk => ?_
  · simp [State.holdsSource, hi]
  · simp [State.holdsSource, createTicket_ticketAt, State.newTicket]
  · simp [State.holdsSource, createTicket_ticketAt, hk]

/-- A creation takes one free slot. -/
theorem createTicket_freeSlots {s : State} {i : SlotId} (hi : s.ticketAt i = none) (src : SourceId) (c : Nat)
    (st : Time) (p : Option (BitVec 16)) : (s.createTicket i src c st p).freeSlots = s.freeSlots - 1 := by
  refine Nat.eq_sub_of_add_eq (Eq.symm (countP_finRange_succ (i := i) ?_ ?_ fun k hk => ?_))
  · simp [State.isFree, createTicket_ticketAt]
  · simp [State.isFree, hi]
  · simp [State.isFree, createTicket_ticketAt, hk]

/-- With every slot occupied no slot is free. -/
theorem freeSlots_of_lowestFree_eq_none {s : State} (hf : s.lowestFree = none) : s.freeSlots = 0 := by
  simpa [State.freeSlots, State.lowestFree, List.countP_eq_zero, List.find?_eq_none] using hf

/-! ## The ticket of an accepted POST -/

/-- The posted sources are 40 to 47. -/
theorem posted_iff {src : SourceId} : SourceId.posted src = true ↔ 40 ≤ src.val ∧ src.val ≤ 47 := by
  simp [SourceId.posted, Nat.lt_succ_iff]

/-- No posted source is source 48. -/
theorem ne_faultSource_of_posted {src : SourceId} (hp : SourceId.posted src = true) : src ≠ faultSource := by
  rintro rfl
  exact absurd hp (by decide)

/-- A ticket created with the stamp of this instant is reserved for the preferred host of a SINGLE record with a
window, if that host is ATTACHED: none of its window has passed (R46). -/
theorem reservationFor_timebase (s : State) (r : SourceRecord) :
    s.reservationFor r s.timebase =
      if r.policy = .single ∧ r.window ≠ 0 then
        r.preferred.bind fun g =>
          if (s.port g).state = .attached then
            some { host := g, expiry := s.timebase + r.window.setWidth 48 }
          else none
      else none := by
  unfold State.reservationFor
  cases hpolicy : r.policy with
  | each => simp
  | single =>
    cases hpreferred : r.preferred with
    | none => simp
    | some g =>
      by_cases hzero : r.window = 0#16
      · simp [hzero]
      · have hpos : 0 < r.window.toNat := Nat.pos_of_ne_zero fun h0 => hzero (BitVec.eq_of_toNat_eq h0)
        simp [hzero, hpos, State.attached]

/-- The ticket of a source other than source 48 takes its hosts from the record too (R10, R99). -/
theorem newTicket_of_ne_faultSource {src : SourceId} (hne : src ≠ faultSource) (s : State) (c : Nat) (st : Time)
    (p : Option (BitVec 16)) :
    s.newTicket src c st p =
      { source := src, level := (s.config src).level, policy := (s.config src).policy
        eligible := (s.config src).eligible, serviceLimit := (s.config src).serviceLimit
        retryLimit := (s.config src).retryLimit, reservation := s.reservationFor (s.config src) st
        count := c, payload := p, stamp := st, lapses := 0, standing := .waiting } := by
  simp [State.newTicket, hne]

/-- An occurrence of an enabled posted source takes the lowest free slot with its payload (case 2 of R9). -/
theorem occurrence_of_posted {s : State} {src : SourceId} {i : SlotId} (hp : SourceId.posted src = true)
    (hl : (s.config src).level ≠ 0) (hi : s.lowestFree = some i) (payload : BitVec 16) :
    s.occurrence src payload = s.createTicket i src 1 s.timebase (some payload) := by
  simp [State.occurrence, State.occurrenceCase, hl, hp, hi]

/-! ## POST -/

/-- POST at a DETACHED port is answered NOT_ATTACHED (R98). -/
theorem exec_post_of_detached {h : Port} {s : State} (hd : (s.port h).state = .detached) (tag source : Byte)
    (payload : BitVec 16) :
    exec (.post h tag source payload) s = .next (s.answer h tag .notAttached []) :=
  congrArg _ (ifAttached_of_detached hd tag _)

section
variable {h : Port} {s : State} (ha : (s.port h).state = .attached)
include ha

/-- POST of a number that is no posted source is answered BAD_ARG (R98). -/
theorem exec_post_of_badArg {source : Byte} (hs : source.toNat < 40 ∨ 47 < source.toNat) (tag : Byte)
    (payload : BitVec 16) : exec (.post h tag source payload) s = .next (s.answer h tag .badArg []) := by
  cases hsrc : sourceOfByte source with
  | none => simp [exec, execPost, ifAttached_of_attached ha, hsrc]
  | some src =>
    have hp : SourceId.posted src = false := by
      rw [sourceOfByte_eq_some.1 hsrc] at hs
      rw [← Bool.not_eq_true, posted_iff]
      omega
    simp [exec, execPost, ifAttached_of_attached ha, hsrc, hp]

variable {source : Byte} {src : SourceId} (hs : source.toNat = src.val) (hp : SourceId.posted src = true)
include hs hp

/-- POST of a disabled source is answered DISABLED (R98). -/
theorem exec_post_of_disabled (hl : (s.config src).level = 0) (tag : Byte) (payload : BitVec 16) :
    exec (.post h tag source payload) s = .next (s.answer h tag .disabled []) := by
  simp [exec, execPost, ifAttached_of_attached ha, sourceOfByte_eq_some.2 hs, hp, hl]

variable (hl : (s.config src).level ≠ 0)
include hl

/-- POST of a source with four live tickets is answered SOURCE_FULL with its two numbers (R98, R100). -/
theorem exec_post_of_sourceFull (hfour : 4 ≤ s.liveCount src) (tag : Byte) (payload : BitVec 16) :
    exec (.post h tag source payload) s =
      .next (s.answer h tag .sourceFull (noHandle ++ s.postNumbers src)) := by
  simp [exec, execPost, ifAttached_of_attached ha, sourceOfByte_eq_some.2 hs, hp, hl, Config.postLimit, hfour]

variable (hfour : s.liveCount src < 4)
include hfour

/-- POST with no free slot is answered POOL_FULL with its two numbers (R98). -/
theorem exec_post_of_poolFull (hf : s.lowestFree = none) (tag : Byte) (payload : BitVec 16) :
    exec (.post h tag source payload) s = .next (s.answer h tag .poolFull (noHandle ++ s.postNumbers src)) := by
  simp [exec, execPost, ifAttached_of_attached ha, sourceOfByte_eq_some.2 hs, hp, hl, Config.postLimit,
    hfour.not_ge, hf]

/-- Any other POST creates a ticket in the lowest free slot, recomputes the offers, and is answered OK with the
handle and the two numbers as they then stand (R98, R99). -/
theorem exec_post_of_free {i : SlotId} (hi : s.lowestFree = some i) (tag : Byte) (payload : BitVec 16) :
    exec (.post h tag source payload) s =
      .next ((s.createTicket i src 1 s.timebase (some payload)).recompute.answer h tag .ok
        (bytesOf16 (wireWord (s.handleOf i) 0) ++ [byteOf (s.liveCount src + 1), byteOf (s.freeSlots - 1)])) := by
  have hfree := (lowestFree_eq_some.1 hi).1
  have hhandle : (s.createTicket i src 1 s.timebase (some payload)).recompute.handleOf i = s.handleOf i :=
    (ticket_and_handle_of_slotBecomes fun j => createTicket_slotAt s i j ..).2
  have hnumbers : (s.createTicket i src 1 s.timebase (some payload)).recompute.postNumbers src =
      [byteOf (s.liveCount src + 1), byteOf (s.freeSlots - 1)] := by
    rw [← createTicket_liveCount hfree src 1 s.timebase (some payload),
      ← createTicket_freeSlots hfree src 1 s.timebase (some payload)]
    rfl
  simp [exec, execPost, ifAttached_of_attached ha, sourceOfByte_eq_some.2 hs, hp, hl, Config.postLimit,
    hfour.not_ge, hi, occurrence_of_posted hp hl hi, hhandle, hnumbers, wordBytes_handleWord]

end

/-- Settles O28: the cases of R98 in their order, and an accepted POST is one creation of a ticket. -/
theorem postCreatesTicket : Obligations.PostCreatesTicket := by
  intro h tag source payload s
  obtain ⟨t, ht⟩ : ∃ t : State, exec (.post h tag source payload) s = .next t := ⟨_, rfl⟩
  refine ⟨t, ht, fun hd => answers_of_next ht (exec_post_of_detached hd tag source payload), fun ha =>
    ⟨fun hs => answers_of_next ht (exec_post_of_badArg ha hs tag payload), fun src hs hlow hhigh => ?_⟩⟩
  have hp := posted_iff.2 ⟨hlow, hhigh⟩
  refine ⟨fun hl => ?_, fun hl hfour => ?_, fun hl hfour hfull => ?_, fun hl hfour i hi hbelow => ?_⟩
  · exact answers_of_next ht (exec_post_of_disabled ha hs hp hl tag payload)
  · exact answers_of_next ht (exec_post_of_sourceFull ha hs hp hl hfour tag payload)
  · have hnone := lowestFree_eq_none.2 hfull
    have hanswer := answers_of_next ht (exec_post_of_poolFull ha hs hp hl hfour hnone tag payload)
    rwa [State.postNumbers, freeSlots_of_lowestFree_eq_none hnone] at hanswer
  · have hfree := lowestFree_eq_some.2 ⟨hi, hbelow⟩
    obtain rfl := Host.Outcome.next.inj (ht.symm.trans (exec_post_of_free ha hs hp hl hfour hfree tag payload))
    rw [← reservationFor_timebase, ← newTicket_of_ne_faultSource (ne_faultSource_of_posted hp)]
    refine ⟨rfl, fun j => createTicket_slotAt s i j .., rfl, rfl, ?_, answered_answer ..⟩
    refine portsBecome_of tag .ok _ (fun g => ?_) rfl
    rw [(createTicket_onlyPool ..).port g]
    by_cases hg : g = h <;> simp [hg]

end Sys2Proof.Machine
end

section
/-! SUPPORT. The session commands that only report: NOP and TIME (R107, R135). -/

namespace Sys2Proof.Machine

/-- Settles O10: both rows are one answer to an unchanged state, with no check of attachment before it. -/
theorem nopAndTimeOnlyReport : Obligations.NopAndTimeOnlyReport := by
  intro h tag s
  refine ⟨⟨s.answer h tag .ok [], rfl, onlyAnswers_answer .., answered_answer ..⟩,
    s.answer h tag .ok (timeBytes s.timebase), rfl, onlyAnswers_answer .., ?_⟩
  rw [← timeBytes_eq]
  exact answered_answer ..

end Sys2Proof.Machine
end

section
/-! SUPPORT. The commands of the Timer Bank on one timer: TIMER_START, TIMER_STOP, TIMER_LOAD and TIMER_READ
(R113 to R116). -/

namespace Sys2Proof.Machine

/-! ## The timer record -/

/-- Byte 1 of the timer record, as a number: mode, prescale, running and owner in its bits (R147). -/
theorem timerFlags_eq (mode : TimerMode) (prescale : Prescale) (running : Bool) (owner : Option Port) :
    (byteOf (64 * mode.code + 16 * prescale.code) ||| bitAt 3 running ||| bitAt 2 owner.isSome
        ||| byteOf ((owner.map Fin.val).getD 0)) =
      BitVec.ofNat 8 (64 * mode.code + 16 * prescale.code + (if running then 8 else 0)
        + ((owner.map fun g => 4 + g.val).getD 0)) := by
  revert running owner
  cases mode <;> cases prescale <;> decide

/-- The timer record, byte by byte (R144, R147). -/
theorem timerReport_eq (n : TimerId) (x : Timer) :
    timerReport n x =
      [BitVec.ofNat 8 n.val,
       BitVec.ofNat 8 (64 * x.mode.code + 16 * x.prescale.code + (if x.running then 8 else 0)
        + ((x.owner.map fun g => 4 + g.val).getD 0)),
       (x.gate.map fun g => BitVec.ofNat 8 g.val).getD 0xFF#8,
       BitVec.ofNat 8 x.chain.val]
      ++ bytesOf16 x.reload.toNat ++ bytesOf16 x.count.toNat := by
  rw [← timerFlags_eq, ← wordBytes_eq, ← wordBytes_eq, timerReport]
  cases x.owner <;> cases x.gate <;> rfl

/-! ## The answers of a timer command -/

/-- A timer command that changes no timer leaves an answer with the record alone. -/
theorem answerTimer_outcome (s : State) (h : Port) (tag : Byte) (st : Status) (n : TimerId) :
    OnlyAnswers s (s.answerTimer h tag st n) h
      ∧ (s.answerTimer h tag st n).Answered h tag st (timerReport n (s.timer n)) :=
  ⟨onlyAnswers_answer .., answered_answer ..⟩

/-- A timer command that writes a timer changes that timer and the response slot, and answers with the record
written (R112). -/
theorem setTimer_answerTimer_outcome {s t : State} {h : Port} {tag : Byte} {st : Status} {n : TimerId} {x : Timer}
    (ht : t = (s.setTimer n x).answerTimer h tag st n) :
    t = { s with
          timers := place s.timers n x
          ports := place s.ports h
            { s.port h with link := { (s.port h).link with slot := (t.port h).link.slot } } }
      ∧ t.Answered h tag st (timerReport n (t.timer n)) := by
  obtain ⟨hframe, hanswer⟩ := answerTimer_outcome (s.setTimer n x) h tag st n
  have htimer : t.timer n = (s.setTimer n x).timer n := by rw [ht]; rfl
  rw [htimer, ht]
  exact ⟨hframe, hanswer⟩

/-! ## The checks that stand before a timer command -/

/-- A timer command under its two checks: the port is ATTACHED, and the timer byte names a timer (R139, R144). -/
def State.onTimer (s : State) (h : Port) (tag timer : Byte) (run : TimerId → State) : State :=
  s.ifAttached h tag ((timerOfByte timer).elim (s.answer h tag .badArg []) run)

/-- A DETACHED port is answered NOT_ATTACHED, a byte above 7 BAD_ARG, and otherwise the command runs on the timer
that the byte names. -/
theorem onTimer_outcome {i : Instr} {s : State} {h : Port} {tag timer : Byte} {run : TimerId → State}
    {P : TimerId → State → Prop} (hexec : exec i s = .next (s.onTimer h tag timer run))
    (hrun : ∀ n, P n (run n)) :
    ∃ t : State, exec i s = .next t
      ∧ ((s.port h).state = .detached → OnlyAnswers s t h ∧ t.Answered h tag .notAttached [])
      ∧ ((s.port h).state = .attached →
        (7 < timer.toNat → OnlyAnswers s t h ∧ t.Answered h tag .badArg [])
        ∧ ∀ n : TimerId, timer.toNat = n.val → P n t) := by
  refine ⟨_, hexec, fun hd => ?_, fun ha => ⟨fun hb => ?_, fun n hn => ?_⟩⟩
  · rw [State.onTimer, ifAttached_of_detached hd]
    exact ⟨onlyAnswers_answer .., answered_answer ..⟩
  · rw [State.onTimer, ifAttached_of_attached ha, timerOfByte_eq_none.2 hb]
    exact ⟨onlyAnswers_answer .., answered_answer ..⟩
  · rw [State.onTimer, ifAttached_of_attached ha, timerOfByte_eq_some.2 hn]
    exact hrun n

/-- A timer that is stopped, or that host h owns, is no running timer of another host (R113, R115). -/
theorem not_anothers_of_free {x : Timer} {h : Port} (hfree : x.running = false ∨ x.owner = some h) :
    ¬(x.running = true ∧ x.owner ≠ some h) := by
  rintro ⟨hr, ho⟩
  rcases hfree with hstopped | hmine
  · simp [hr] at hstopped
  · exact ho hmine

/-! ## TIMER_START -/

/-- TIMER_START of timer n, behind its checks (R113). -/
def State.startTimer (s : State) (h : Port) (tag : Byte) (n : TimerId) : State :=
  if (s.timer n).mode = .off then s.answerTimer h tag .badArg n
  else if (s.timer n).running ∧ (s.timer n).owner ≠ some h then s.answerTimer h tag .notOwner n
  else
    (s.setTimer n
      { s.timer n with
        count := (s.timer n).reload, running := true, owner := some h, stepDue := false }).answerTimer h tag .ok n

/-- The row of TIMER_START is these checks, and then the command on the timer named (R113). -/
theorem exec_timerStart (h : Port) (tag timer : Byte) (s : State) :
    exec (.timerStart h tag timer) s = .next (s.onTimer h tag timer (s.startTimer h tag)) := by
  simp only [exec, execTimerStart, State.onTimer]
  cases timerOfByte timer <;> rfl

/-- Settles O30: the mode of the timer, and then its owner, select the row of TIMER_START. -/
theorem timerStartRuns : Obligations.TimerStartRuns := by
  intro h tag timer s
  refine onTimer_outcome (exec_timerStart h tag timer s) fun n => ⟨fun hoff => ?_, fun hon hr ho => ?_,
    fun hon hfree => setTimer_answerTimer_outcome ?_⟩
  · rw [State.startTimer, if_pos hoff]
    exact answerTimer_outcome ..
  · rw [State.startTimer, if_neg hon, if_pos ⟨hr, ho⟩]
    exact answerTimer_outcome ..
  · rw [State.startTimer, if_neg hon, if_neg (not_anothers_of_free hfree)]

/-! ## TIMER_STOP -/

/-- TIMER_STOP of timer n, behind its checks (R114). -/
def State.stopTimer (s : State) (h : Port) (tag : Byte) (n : TimerId) : State :=
  if (s.timer n).running = false then s.answerTimer h tag .ok n
  else if (s.timer n).owner = some h ∨ s.token = some h then
    (s.setTimer n (s.timer n).stopped).answerTimer h tag .ok n
  else s.answerTimer h tag .notOwner n

/-- The row of TIMER_STOP is these checks, and then the command on the timer named (R114). -/
theorem exec_timerStop (h : Port) (tag timer : Byte) (s : State) :
    exec (.timerStop h tag timer) s = .next (s.onTimer h tag timer (s.stopTimer h tag)) := by
  simp only [exec, execTimerStop, State.onTimer]
  cases timerOfByte timer <;> rfl

/-- Settles O31: a stopped timer is only reported, and a running one stops for its owner or the token holder; the
record of a stopped timer keeps its count. -/
theorem timerStopKeepsCount : Obligations.TimerStopKeepsCount := by
  intro h tag timer s
  refine onTimer_outcome (exec_timerStop h tag timer s) fun n => ⟨fun hstopped => ?_, fun hr ho ht => ?_,
    fun hr hmay => setTimer_answerTimer_outcome ?_⟩
  · rw [State.stopTimer, if_pos hstopped]
    exact answerTimer_outcome ..
  · rw [State.stopTimer, if_neg (by simp [hr]), if_neg (not_or.2 ⟨ho, ht⟩)]
    exact answerTimer_outcome ..
  · rw [State.stopTimer, if_neg (by simp [hr]), if_pos hmay, Timer.stopped]

/-! ## TIMER_LOAD -/

/-- TIMER_LOAD of timer n, behind its checks (R115). -/
def State.loadTimer (s : State) (h : Port) (tag : Byte) (reload : BitVec 16) (n : TimerId) : State :=
  if reload = 0 then s.answerTimer h tag .badArg n
  else if (s.timer n).running ∧ (s.timer n).owner ≠ some h then s.answerTimer h tag .notOwner n
  else (s.setTimer n { s.timer n with reload := reload }).answerTimer h tag .ok n

/-- The row of TIMER_LOAD is these checks, and then the command on the timer named (R115). -/
theorem exec_timerLoad (h : Port) (tag timer : Byte) (reload : BitVec 16) (s : State) :
    exec (.timerLoad h tag timer reload) s = .next (s.onTimer h tag timer (s.loadTimer h tag reload)) := by
  simp only [exec, execTimerLoad, State.onTimer]
  cases timerOfByte timer <;> rfl

/-- Settles O32: the reload value, and then the owner of the timer, select the row of TIMER_LOAD. -/
theorem timerLoadSetsReload : Obligations.TimerLoadSetsReload := by
  intro h tag timer reload s
  refine onTimer_outcome (exec_timerLoad h tag timer reload s) fun n => ⟨fun hzero => ?_, fun hne hr ho => ?_,
    fun hne hfree => setTimer_answerTimer_outcome ?_⟩
  · rw [State.loadTimer, if_pos hzero]
    exact answerTimer_outcome ..
  · rw [State.loadTimer, if_neg hne, if_pos ⟨hr, ho⟩]
    exact answerTimer_outcome ..
  · rw [State.loadTimer, if_neg hne, if_neg (not_anothers_of_free hfree)]

/-! ## TIMER_READ -/

/-- The row of TIMER_READ is these checks, and then the command on the timer named (R116). -/
theorem exec_timerRead (h : Port) (tag timer : Byte) (s : State) :
    exec (.timerRead h tag timer) s = .next (s.onTimer h tag timer (s.answerTimer h tag .ok)) := by
  simp only [exec, execTimerRead, State.onTimer]
  cases timerOfByte timer <;> rfl

/-- Settles O33: TIMER_READ is one answer to an unchanged state, whose bytes are those of the timer's record. -/
theorem timerReadReportsRecord : Obligations.TimerReadReportsRecord := by
  refine ⟨fun n x => ?_, fun h tag timer s => ?_⟩
  · rw [timerReport_eq]
    cases x.mode <;> cases x.prescale <;> rfl
  · obtain ⟨t, hnext, hdetached, hattached⟩ :=
      onTimer_outcome
        (P := fun n t => OnlyAnswers s t h ∧ t.Answered h tag .ok (timerReport n (s.timer n)))
        (exec_timerRead h tag timer s) (answerTimer_outcome s h tag .ok)
    refine ⟨t, hnext, ?_, fun hd => (hdetached hd).2, fun ha hb => ((hattached ha).1 hb).2,
      fun ha n hn => ((hattached ha).2 n hn).2⟩
    cases hp : (s.port h).state with
    | detached => exact (hdetached hp).1
    | attached =>
      by_cases hb : 7 < timer.toNat
      · exact ((hattached hp).1 hb).1
      · exact ((hattached hp).2 ⟨timer.toNat, by omega⟩ rfl).1

end Sys2Proof.Machine
end

section
/-! SUPPORT. The supervision token: TAKE and HANDOVER, and the refusals that stand before every command (R119,
R120, R121, R139). -/

namespace Sys2Proof.Machine

/-! ## The token passes to a port -/

/-- The state after a command of port h that makes port g the holder and answers OK with its number. -/
def State.tokenGiven (s : State) (h : Port) (tag : Byte) (g : Port) : State :=
  (State.recompute { s with token := some g }).answer h tag .ok [BitVec.ofNat 8 g.val]

/-- Beside the token, the passing of it changes the ports alone. -/
theorem tokenGiven_frame (s : State) (h : Port) (tag : Byte) (g : Port) :
    s.tokenGiven h tag g = { s with token := some g, ports := (s.tokenGiven h tag g).ports } := rfl

/-- Of the ports the passing of the token changes the ATTN lines and the response slot of the issuing port alone. -/
theorem tokenGiven_portsBecome (s : State) (h : Port) (tag : Byte) (g : Port) :
    PortsBecome s (s.tokenGiven h tag g) h (s.port h) := by
  refine portsBecome_of tag .ok _ (fun p => ?_) rfl
  change s.port p = _
  split
  next hp => rw [hp]
  next => rfl

theorem tokenGiven_answered (s : State) (h : Port) (tag : Byte) (g : Port) :
    (s.tokenGiven h tag g).Answered h tag .ok [BitVec.ofNat 8 g.val] :=
  answered_answer ..

/-! ## TAKE -/

/-- TAKE at a DETACHED port is answered NOT_ATTACHED (R139). -/
theorem exec_take_of_detached {h : Port} {s : State} (hd : (s.port h).state = .detached) (tag : Byte) :
    exec (.take h tag) s = .next (s.answer h tag .notAttached []) :=
  congrArg _ (ifAttached_of_detached hd tag _)

/-- TAKE of a token that is held is answered TOKEN_HELD with the holder's number (R119). -/
theorem exec_take_of_held {h g : Port} {s : State} (ha : (s.port h).state = .attached) (ht : s.token = some g)
    (tag : Byte) : exec (.take h tag) s = .next (s.answer h tag .tokenHeld [BitVec.ofNat 8 g.val]) := by
  simp only [exec, execTake, ifAttached_of_attached ha, ht]
  rfl

/-- TAKE of the vacant token makes the issuing port the holder (R119). -/
theorem exec_take_of_vacant {h : Port} {s : State} (ha : (s.port h).state = .attached) (ht : s.token = none)
    (tag : Byte) : exec (.take h tag) s = .next (s.tokenGiven h tag h) := by
  simp only [exec, execTake, ifAttached_of_attached ha, ht]
  rfl

/-- Settles O34: the attachment of the port, and then the token, select the row of TAKE. -/
theorem takeGivesVacantToken : Obligations.TakeGivesVacantToken := by
  intro h tag s
  obtain ⟨t, hnext⟩ : ∃ t : State, exec (.take h tag) s = .next t := ⟨_, rfl⟩
  refine ⟨t, hnext, fun hd => ?_, fun ha g hg => ?_, fun ha hvacant => ?_⟩
  · exact answers_of_next hnext (exec_take_of_detached hd tag)
  · exact answers_of_next hnext (exec_take_of_held ha hg tag)
  · obtain rfl := Host.Outcome.next.inj (hnext.symm.trans (exec_take_of_vacant ha hvacant tag))
    exact ⟨tokenGiven_frame .., tokenGiven_portsBecome s h tag h, tokenGiven_answered ..⟩

/-! ## HANDOVER -/

section
variable {h : Port} {s : State} (ha : (s.port h).state = .attached) (ht : s.token = some h)
include ha ht

/-- HANDOVER to a number above 3 is answered BAD_ARG (R120). -/
theorem exec_handover_of_noPort {target : Byte} (hb : 3 < target.toNat) (tag : Byte) :
    exec (.handover h tag target) s = .next (s.answer h tag .badArg []) := by
  simp [exec, execHandover, ifSupervisor_of_holder ha ht, portOfByte_eq_none.2 hb]

/-- HANDOVER to the issuer itself or to a DETACHED port is answered BAD_ARG (R120). -/
theorem exec_handover_of_unfit {target : Byte} {g : Port} (hg : target.toNat = g.val)
    (hunfit : g = h ∨ (s.port g).state = .detached) (tag : Byte) :
    exec (.handover h tag target) s = .next (s.answer h tag .badArg []) := by
  have hrefused : g = h ∨ s.attached g = false := hunfit.imp_right fun hd => by simp [State.attached, hd]
  simp only [exec, execHandover, ifSupervisor_of_holder ha ht, portOfByte_eq_some.2 hg, if_pos hrefused]

/-- HANDOVER to another ATTACHED port makes it the holder (R120). -/
theorem exec_handover_of_attached {target : Byte} {g : Port} (hg : target.toNat = g.val) (hne : g ≠ h)
    (hattached : (s.port g).state = .attached) (tag : Byte) :
    exec (.handover h tag target) s = .next (s.tokenGiven h tag g) := by
  have htaken : ¬(g = h ∨ s.attached g = false) := by simp [State.attached, hne, hattached]
  simp only [exec, execHandover, ifSupervisor_of_holder ha ht, portOfByte_eq_some.2 hg, if_neg htaken]
  rfl

end

/-- Settles O35: the target byte selects the row of HANDOVER, and an accepted target's number is that byte. -/
theorem handoverPassesToken : Obligations.HandoverPassesToken := by
  intro h tag target s ha ht
  obtain ⟨t, hnext⟩ : ∃ t : State, exec (.handover h tag target) s = .next t := ⟨_, rfl⟩
  refine ⟨t, hnext, fun hb => ?_, fun g hg => ⟨fun hunfit => ?_, fun hne hattached => ?_⟩⟩
  · exact answers_of_next hnext (exec_handover_of_noPort ha ht hb tag)
  · exact answers_of_next hnext (exec_handover_of_unfit ha ht hg hunfit tag)
  · obtain rfl := Host.Outcome.next.inj (hnext.symm.trans (exec_handover_of_attached ha ht hg hne hattached tag))
    have htarget : target = BitVec.ofNat 8 g.val := by rw [← hg, BitVec.ofNat_toNat, BitVec.setWidth_eq]
    rw [htarget]
    exact ⟨tokenGiven_frame .., tokenGiven_portsBecome s h tag g, tokenGiven_answered ..⟩

/-! ## The refusals that come first -/

/-- Every command but NOP, ATTACH, STATUS, TIME and LINES stands behind the check of attachment (R139). -/
theorem exec_eq_ifAttached {c : Command} (hc : c.code.toNat ∉ [0x00, 0x01, 0x03, 0x04, 0x05]) (h : Port)
    (tag : Byte) (s : State) : ∃ run : State, exec (c.toInstr h tag) s = .next (s.ifAttached h tag run) := by
  cases c with
  | nop | attach | status | time | lines => simp [Command.code] at hc
  | _ => exact ⟨_, rfl⟩

/-- The six protected commands stand behind the check of the token (R121). -/
theorem exec_eq_ifSupervisor {c : Command} (hc : c.code.toNat ∈ [0x31, 0x32, 0x33, 0x35, 0x36, 0x37]) (h : Port)
    (tag : Byte) (s : State) : ∃ run : State, exec (c.toInstr h tag) s = .next (s.ifSupervisor h tag run) := by
  cases c with
  | handover | eject | sourceSet | flush | faultRead | trigger => exact ⟨_, rfl⟩
  | _ => simp [Command.code] at hc

/-- Settles O44: each command named stands behind its check, and a check that fails answers to the state as it
stands. -/
theorem refusalsComeFirst : Obligations.RefusalsComeFirst := by
  refine fun c h tag s => ⟨fun hd hc => ?_, fun ha ht hc => ?_⟩
  · obtain ⟨run, hexec⟩ := exec_eq_ifAttached hc h tag s
    exact ⟨_, hexec, answers_of_next hexec (hexec.trans (congrArg _ (ifAttached_of_detached hd tag run)))⟩
  · obtain ⟨run, hexec⟩ := exec_eq_ifSupervisor hc h tag s
    exact ⟨_, hexec, answers_of_next hexec (hexec.trans (congrArg _ (ifSupervisor_of_not_holder ha ht tag run)))⟩

end Sys2Proof.Machine
end

section
/-! SUPPORT. The joining of a port: ATTACH (R140). -/

namespace Sys2Proof.Machine

/-- The data of an ATTACH response, byte by byte: the port, the token holder and the free slots (R140, R147). -/
theorem attachReport_eq (s : State) (h : Port) :
    s.attachReport h =
      [BitVec.ofNat 8 h.val, (s.token.map fun g => BitVec.ofNat 8 g.val).getD 0xFF#8,
       BitVec.ofNat 8 ((List.finRange 64).countP fun i => (s.ticketAt i).isNone)] := by
  rw [State.attachReport, portByte_eq]
  rfl

/-- The state in which port h has joined: ATTACHED with threshold 0, and the offers recomputed (R43, R140). -/
def State.portJoined (s : State) (h : Port) : State :=
  (s.setPort h { s.port h with state := .attached, threshold := 0 }).recompute

/-- The joining of a port changes neither the token nor the pool, so the report stands as before it. -/
theorem attachReport_portJoined (s : State) (h : Port) : (s.portJoined h).attachReport h = s.attachReport h := rfl

/-- ATTACH at an ATTACHED port reports on the state as it stands (R140). -/
theorem exec_attach_of_attached {h : Port} {s : State} (ha : (s.port h).state = .attached) (tag : Byte) :
    exec (.attach h tag) s = .next (s.answer h tag .ok (s.attachReport h)) := by
  simp [exec, execAttach, State.attached, ha]

/-- ATTACH at a DETACHED port lets the port join, and then reports (R140). -/
theorem exec_attach_of_detached {h : Port} {s : State} (hd : (s.port h).state = .detached) (tag : Byte) :
    exec (.attach h tag) s = .next ((s.portJoined h).answer h tag .ok (s.attachReport h)) := by
  rw [← attachReport_portJoined]
  simp [exec, execAttach, State.attached, hd, State.portJoined]

/-- Settles O13: the attachment of the port selects the row of ATTACH, and both rows give one report. -/
theorem attachJoins : Obligations.AttachJoins := by
  intro h tag s
  rw [← attachReport_eq]
  cases hp : (s.port h).state with
  | attached =>
    exact ⟨_, exec_attach_of_attached hp tag, fun _ => onlyAnswers_answer .., nofun, answered_answer ..⟩
  | detached =>
    have hjoined : PortsBecome s ((s.portJoined h).answer h tag .ok (s.attachReport h)) h
        { s.port h with state := .attached, threshold := 0 } :=
      portsBecome_of tag .ok _ (State.setPort_port s h · _) rfl
    exact ⟨_, exec_attach_of_detached hp tag, nofun, fun _ => ⟨rfl, hjoined⟩, answered_answer ..⟩

end Sys2Proof.Machine
end

section
/-! SUPPORT. What a step can do: a run of acts, each of which leaves the part in a state of its own. Every law that
the acts keep is kept by every step. -/

namespace Sys2Proof.Machine

/-- The state in which port h has left the dispatching of work, and the token is vacant if it was the holder
(R118, R141). -/
def State.portLeft (s : State) (h : Port) : State :=
  State.recompute { s.depart h with token := if s.token == some h then none else (s.depart h).token }

/-- The advance of the timebase with everything that comes in it, before the offers are recomputed (R105). -/
def State.advanced (s : State) (pins : BitVec 32) (order held : List AdvanceEvent) : State :=
  (order ++ allAdvanceEvents).foldl (State.advanceEvent pins (chainOrderOf order) held) s.takeHeld.moveTimebase

/-- One act of a command. A command is a run of acts that ends with its response. -/
inductive CommandAct : State → State → Prop
  | answer (s : State) (h : Port) (tag : Byte) (st : Status) (d : List Byte) : CommandAct s (s.answer h tag st d)
  | join {s : State} {h : Port} (hd : (s.port h).state = .detached) : CommandAct s (s.portJoined h)
  | leave {s : State} {h : Port} (ha : s.attached h = true) : CommandAct s (s.portLeft h)
  | eject {s : State} {h g : Port} (ht : s.token = some h) (hne : g ≠ h) (hg : s.attached g = true) :
      CommandAct s (s.ejectPort g)
  | threshold (s : State) (h : Port) (v : Fin 16) :
      CommandAct s (s.setPort h { s.port h with threshold := v }).recompute
  | token {s : State} {g : Port} (hg : s.attached g = true) : CommandAct s (State.recompute { s with token := some g })
  | configure {s : State} {src : SourceId} {c : Vector Byte 9} {r : SourceRecord}
      (hr : s.recordGiven src c = some r) : CommandAct s ((s.setConfig src r).afterSourceSet s src).recompute
  | flush (s : State) : CommandAct s s.flush
  | clearOverflow (s : State) : CommandAct s { s with faults := { s.faults with overflow := false } }
  | readFault {s : State} {r : FaultRecord} {rest : List FaultRecord} (hq : s.faults.records = r :: rest) :
      CommandAct s (s.readFault rest)
  | trigger {s : State} {src : SourceId} (hr : s.triggerable src = true) : CommandAct s (s.occurrence src).recompute
  | post {s : State} {src : SourceId} (payload : BitVec 16) (hp : SourceId.posted src = true)
      (hroom : s.liveCount src < Config.postLimit) : CommandAct s (s.occurrence src payload).recompute
  | claim {s : State} {h : Port} {i : SlotId} {u : Ticket} (ho : s.offer h = some i)
      (hu : s.ticketAt i = some u) : CommandAct s (s.claimTicket h i u).recompute
  | popLapsed {s : State} {h : Port} {e : Entry} {rest : List Entry} (hs : (s.port h).stack = e :: rest)
      (he : e.state = .lapsed) : CommandAct s (s.setStack h rest).recompute
  | retire {s : State} {h : Port} {e : Entry} {rest : List Entry} (hs : (s.port h).stack = e :: rest)
      (he : e.state = .active) : CommandAct s ((s.setStack h rest).retireTicket h e.handle).recompute
  | extend {s : State} {h : Port} {e : Entry} {rest : List Entry} (expiry : Option Time) (n : Nat)
      (hs : (s.port h).stack = e :: rest) :
      CommandAct s (s.setStack h ({ e with expiry := expiry, extensions := n } :: rest))
  | setUpTimer {s : State} {n : TimerId} {mode prescale gate chain : Byte} {reload : BitVec 16} {x : Timer}
      (hr : (s.timer n).running = false)
      (hx : (s.timer n).setUp n mode prescale reload gate chain = some x) : CommandAct s (s.setTimer n x)
  | startTimer {s : State} {h : Port} {n : TimerId} (ha : s.attached h = true) :
      CommandAct s (s.setTimer n
        { s.timer n with count := (s.timer n).reload, running := true, owner := some h, stepDue := false })
  | stopTimer (s : State) (n : TimerId) : CommandAct s (s.setTimer n (s.timer n).stopped)
  | loadTimer (s : State) (n : TimerId) {reload : BitVec 16} (hr : reload ≠ 0) :
      CommandAct s (s.setTimer n { s.timer n with reload := reload })

/-- One act of the part: one of a command, a reset, what an edge of a select changes at its port, a delivery, or an
event. -/
inductive Act : State → State → Prop
  | command {s t : State} (hc : CommandAct s t) : Act s t
  | reset (s : State) : Act s { State.reset with pending := s.pending }
  | link (s : State) (h : Port) (l : Link) : Act s (s.setLink h l)
  | deliver (s : State) (h : Port) (r : Response) : Act s (s.deliver h r)
  | advance (s : State) (pins : BitVec 32) (order held : List AdvanceEvent) :
      Act s (s.advanced pins order held).recompute
  | expire (s : State) (chainOrder : List TimerId) (e : AdvanceEvent) : Act s (s.expiryRow chainOrder e)

/-- A run of acts of commands. -/
abbrev CommandActs : State → State → Prop := Relation.ReflTransGen CommandAct

/-- A run of acts. -/
abbrev Acts : State → State → Prop := Relation.ReflTransGen Act

/-- A single act is a run. -/
theorem Act.acts {s t : State} (h : Act s t) : Acts s t := .single h

theorem acts_of_commandActs {s t : State} (h : CommandActs s t) : Acts s t :=
  Relation.ReflTransGen.mono (p := Act) (fun _ _ => Act.command) s t h

/-- An answer to the state as it stands is a run. -/
theorem acts_answer (s : State) (h : Port) (tag : Byte) (st : Status) (d : List Byte) :
    CommandActs s (s.answer h tag st d) := .single (.answer s h tag st d)

/-- An act and the response to it are a run. -/
theorem CommandAct.answered {s t : State} (ha : CommandAct s t) (h : Port) (tag : Byte) (st : Status)
    (d : List Byte) : CommandActs s (t.answer h tag st d) := .tail (.single ha) (.answer t h tag st d)

/-! ## The commands -/

section
variable {s run : State} {h : Port}

/-- Behind the check of attachment a command has an ATTACHED port to run at. -/
theorem acts_ifAttached (tag : Byte) (hrun : s.attached h = true → CommandActs s run) :
    CommandActs s (s.ifAttached h tag run) := by
  unfold State.ifAttached
  split
  next ha => exact hrun ha
  next => exact acts_answer ..

/-- Behind the check of the token a command has the token holder to run for. -/
theorem acts_ifSupervisor (tag : Byte) (hrun : s.token = some h → CommandActs s run) :
    CommandActs s (s.ifSupervisor h tag run) := by
  refine acts_ifAttached tag fun _ => ?_
  split
  next ht => exact hrun ht
  next => exact acts_answer ..

/-- A claim of the offer is one act and its response. -/
theorem acts_claimOffer {i : SlotId} (ho : s.offer h = some i) (tag : Byte) : CommandActs s (s.claimOffer h tag i) := by
  unfold State.claimOffer
  split
  next => exact acts_answer ..
  next u hu => exact (CommandAct.claim ho hu).answered ..

end

/-- DETACH is the leaving of its port. -/
theorem execDetach_acts (h : Port) (tag : Byte) (s : State) : ∃ t, execDetach h tag s = .next t ∧ CommandActs s t :=
  ⟨_, rfl, acts_ifAttached tag fun ha => (CommandAct.leave ha).answered ..⟩

/-- ATTACH is the joining of its port, unless it has joined. -/
theorem execAttach_acts (h : Port) (tag : Byte) (s : State) : ∃ t, execAttach h tag s = .next t ∧ CommandActs s t := by
  cases hp : (s.port h).state with
  | attached => exact ⟨_, exec_attach_of_attached hp tag, acts_answer ..⟩
  | detached => exact ⟨_, exec_attach_of_detached hp tag, (CommandAct.join hp).answered ..⟩

theorem execPeek_acts (h : Port) (tag : Byte) (s : State) : ∃ t, execPeek h tag s = .next t ∧ CommandActs s t :=
  have ⟨_, _, hanswer⟩ := exec_peek_answers h tag s
  ⟨_, hanswer, acts_answer ..⟩

theorem execClaim_acts (h : Port) (tag : Byte) (s : State) : ∃ t, execClaim h tag s = .next t ∧ CommandActs s t := by
  refine ⟨_, rfl, acts_ifAttached tag fun _ => ?_⟩
  split
  next => exact acts_answer ..
  next =>
    split
    next => exact acts_answer ..
    next i ho => exact acts_claimOffer ho tag

theorem execClaimHandle_acts (h : Port) (tag : Byte) (word : BitVec 16) (s : State) :
    ∃ t, execClaimHandle h tag word s = .next t ∧ CommandActs s t := by
  refine ⟨_, rfl, acts_ifAttached tag fun _ => ?_⟩
  split
  next => exact acts_answer ..
  next =>
    split
    next => exact acts_answer ..
    next i ho =>
      split
      next => exact acts_claimOffer ho tag
      next => exact acts_answer ..

theorem execRetire_acts (h : Port) (tag : Byte) (word : BitVec 16) (s : State) :
    ∃ t, execRetire h tag word s = .next t ∧ CommandActs s t := by
  refine ⟨_, rfl, acts_ifAttached tag fun _ => ?_⟩
  split
  next => exact acts_answer ..
  next e rest hs =>
    split
    next => exact acts_answer ..
    next =>
      split
      next he => exact (CommandAct.popLapsed hs he).answered ..
      next he => exact (CommandAct.retire hs he).answered ..

theorem execExtend_acts (h : Port) (tag : Byte) (word : BitVec 16) (s : State) :
    ∃ t, execExtend h tag word s = .next t ∧ CommandActs s t := by
  refine ⟨_, rfl, acts_ifAttached tag fun _ => ?_⟩
  split
  next => exact acts_answer ..
  next e rest hs =>
    split_ifs
    iterate 4 exact acts_answer ..
    exact (CommandAct.extend _ _ hs).answered ..

theorem execThreshold_acts (h : Port) (tag value : Byte) (s : State) :
    ∃ t, execThreshold h tag value s = .next t ∧ CommandActs s t := by
  refine ⟨_, rfl, acts_ifAttached tag fun _ => ?_⟩
  split
  next => exact acts_answer ..
  next v _ => exact (CommandAct.threshold s h v).answered ..

theorem execPost_acts (h : Port) (tag source : Byte) (payload : BitVec 16) (s : State) :
    ∃ t, execPost h tag source payload s = .next t ∧ CommandActs s t := by
  refine ⟨_, rfl, acts_ifAttached tag fun _ => ?_⟩
  split
  next => exact acts_answer ..
  next src _ =>
    split
    next => exact acts_answer ..
    next hp =>
      split
      next => exact acts_answer ..
      next =>
        split
        next => exact acts_answer ..
        next hroom =>
          split
          next => exact acts_answer ..
          next => exact (CommandAct.post payload (by simpa using hp) (not_le.1 hroom)).answered ..

/-- A timer command behind its checks is a run if the command on each timer is one. -/
theorem acts_onTimer {s : State} {h : Port} {run : TimerId → State} (tag timer : Byte)
    (hrun : s.attached h = true → ∀ n, CommandActs s (run n)) : CommandActs s (s.onTimer h tag timer run) := by
  refine acts_ifAttached tag fun ha => ?_
  cases timerOfByte timer with
  | none => exact acts_answer ..
  | some n => exact hrun ha n

theorem execTimerSetup_acts (h : Port) (tag timer mode prescale : Byte) (reload : BitVec 16) (gate chain : Byte)
    (s : State) : ∃ t, execTimerSetup h tag timer mode prescale reload gate chain s = .next t ∧ CommandActs s t := by
  refine ⟨_, rfl, acts_ifAttached tag fun _ => ?_⟩
  split
  next => exact acts_answer ..
  next n _ =>
    split
    next => exact acts_answer ..
    next hr =>
      split
      next => exact acts_answer ..
      next x hx => exact (CommandAct.setUpTimer (by simpa using hr) hx).answered ..

theorem execTimerStart_acts (h : Port) (tag timer : Byte) (s : State) :
    ∃ t, execTimerStart h tag timer s = .next t ∧ CommandActs s t := by
  refine ⟨_, exec_timerStart h tag timer s, acts_onTimer tag timer fun ha n => ?_⟩
  unfold State.startTimer
  split_ifs
  iterate 2 exact acts_answer ..
  exact (CommandAct.startTimer ha).answered ..

theorem execTimerStop_acts (h : Port) (tag timer : Byte) (s : State) :
    ∃ t, execTimerStop h tag timer s = .next t ∧ CommandActs s t := by
  refine ⟨_, exec_timerStop h tag timer s, acts_onTimer tag timer fun _ n => ?_⟩
  unfold State.stopTimer
  split_ifs
  · exact acts_answer ..
  · exact (CommandAct.stopTimer s n).answered ..
  · exact acts_answer ..

theorem execTimerLoad_acts (h : Port) (tag timer : Byte) (reload : BitVec 16) (s : State) :
    ∃ t, execTimerLoad h tag timer reload s = .next t ∧ CommandActs s t := by
  refine ⟨_, exec_timerLoad h tag timer reload s, acts_onTimer tag timer fun _ n => ?_⟩
  unfold State.loadTimer
  split_ifs with hr
  iterate 2 exact acts_answer ..
  exact (CommandAct.loadTimer s n hr).answered ..

theorem execTimerRead_acts (h : Port) (tag timer : Byte) (s : State) :
    ∃ t, execTimerRead h tag timer s = .next t ∧ CommandActs s t :=
  ⟨_, exec_timerRead h tag timer s, acts_onTimer tag timer fun _ _ => acts_answer ..⟩

theorem execTake_acts (h : Port) (tag : Byte) (s : State) : ∃ t, execTake h tag s = .next t ∧ CommandActs s t := by
  refine ⟨_, rfl, acts_ifAttached tag fun ha => ?_⟩
  split
  next => exact acts_answer ..
  next => exact (CommandAct.token ha).answered ..

theorem execHandover_acts (h : Port) (tag target : Byte) (s : State) :
    ∃ t, execHandover h tag target s = .next t ∧ CommandActs s t := by
  refine ⟨_, rfl, acts_ifSupervisor tag fun _ => ?_⟩
  split
  next => exact acts_answer ..
  next g _ =>
    split
    next => exact acts_answer ..
    next hg => exact (CommandAct.token (by simpa using (not_or.1 hg).2)).answered ..

theorem execEject_acts (h : Port) (tag target : Byte) (s : State) :
    ∃ t, execEject h tag target s = .next t ∧ CommandActs s t := by
  refine ⟨_, rfl, acts_ifSupervisor tag fun ht => ?_⟩
  split
  next => exact acts_answer ..
  next g _ =>
    split
    next => exact acts_answer ..
    next hg => exact (CommandAct.eject ht (not_or.1 hg).1 (by simpa using (not_or.1 hg).2)).answered ..

theorem execSourceSet_acts (h : Port) (tag source : Byte) (config : Vector Byte 9) (s : State) :
    ∃ t, execSourceSet h tag source config s = .next t ∧ CommandActs s t := by
  refine ⟨_, rfl, acts_ifSupervisor tag fun _ => ?_⟩
  split
  next => exact acts_answer ..
  next src _ =>
    split
    next => exact acts_answer ..
    next r hr => exact (CommandAct.configure hr).answered ..

theorem execSourceRead_acts (h : Port) (tag source : Byte) (s : State) :
    ∃ t, execSourceRead h tag source s = .next t ∧ CommandActs s t :=
  have ⟨_, _, hanswer⟩ := exec_sourceRead_answers h tag source s
  ⟨_, hanswer, acts_answer ..⟩

theorem execFlush_acts (h : Port) (tag : Byte) (s : State) : ∃ t, execFlush h tag s = .next t ∧ CommandActs s t :=
  ⟨_, rfl, acts_ifSupervisor tag fun _ => (CommandAct.flush s).answered ..⟩

theorem execFaultRead_acts (h : Port) (tag : Byte) (s : State) :
    ∃ t, execFaultRead h tag s = .next t ∧ CommandActs s t := by
  refine ⟨_, rfl, acts_ifSupervisor tag fun _ => ?_⟩
  split
  next => exact (CommandAct.clearOverflow s).answered ..
  next r rest hq => exact (CommandAct.readFault hq).answered ..

theorem execTrigger_acts (h : Port) (tag source : Byte) (s : State) :
    ∃ t, execTrigger h tag source s = .next t ∧ CommandActs s t := by
  refine ⟨_, rfl, acts_ifSupervisor tag fun _ => ?_⟩
  split
  next => exact acts_answer ..
  next src _ =>
    split
    next => exact acts_answer ..
    next hr =>
      split
      next => exact acts_answer ..
      next => exact (CommandAct.trigger (by simpa using hr)).answered ..

/-- A command of the link is a run of acts. -/
theorem takeCommand_acts (h : Port) (tag : Byte) (c : Command) (s : State) :
    ∃ t, takeCommand h tag c s = .next t ∧ CommandActs s t := by
  cases c with
  | nop | status | time | lines => exact ⟨_, rfl, acts_answer ..⟩
  | attach => exact execAttach_acts h tag s
  | detach => exact execDetach_acts h tag s
  | peek => exact execPeek_acts h tag s
  | claim => exact execClaim_acts h tag s
  | claimHandle w => exact execClaimHandle_acts h tag w s
  | retire w => exact execRetire_acts h tag w s
  | extend w => exact execExtend_acts h tag w s
  | threshold v => exact execThreshold_acts h tag v s
  | post src p => exact execPost_acts h tag src p s
  | timerSetup n m p r g k => exact execTimerSetup_acts h tag n m p r g k s
  | timerStart n => exact execTimerStart_acts h tag n s
  | timerStop n => exact execTimerStop_acts h tag n s
  | timerLoad n r => exact execTimerLoad_acts h tag n r s
  | timerRead n => exact execTimerRead_acts h tag n s
  | take => exact execTake_acts h tag s
  | handover g => exact execHandover_acts h tag g s
  | eject g => exact execEject_acts h tag g s
  | sourceSet src c => exact execSourceSet_acts h tag src c s
  | sourceRead src => exact execSourceRead_acts h tag src s
  | flush => exact execFlush_acts h tag s
  | faultRead => exact execFaultRead_acts h tag s
  | trigger src => exact execTrigger_acts h tag src s

/-- The row of a command takes the command as the link does (log 2). -/
theorem exec_toInstr (c : Command) (h : Port) (tag : Byte) (s : State) :
    exec (c.toInstr h tag) s = takeCommand h tag c s := by
  cases c <;> rfl

/-! ## The rows -/

/-- The judgement of a transaction is an answer or the taking of its command (R134). -/
theorem judge_acts (s : State) (h : Port) (bits : List Bool) :
    ∃ t, s.judge h bits = .next t ∧ CommandActs s t := by
  unfold State.judge
  dsimp only
  split
  next => exact ⟨_, rfl, acts_answer ..⟩
  next =>
    split
    next => exact ⟨_, rfl, acts_answer ..⟩
    next =>
      split
      next => exact ⟨_, rfl, acts_answer ..⟩
      next c _ =>
        split
        next => exact ⟨_, rfl, acts_answer ..⟩
        next => exact takeCommand_acts h _ c s

/-- The end of a transaction is what the rise changes at the port, and then the judgement (R134). -/
theorem execTransactionEnd_acts (h : Port) (sdi : List Bool) (s : State) :
    ∃ t, execTransactionEnd h sdi s = .next t ∧ Acts s t := by
  have hrisen (sent : List Bool) : Acts s (s.selectRisen h sent) := (Act.link s h _).acts
  unfold execTransactionEnd
  split
  next => exact ⟨_, rfl, .refl⟩
  next => exact ⟨_, rfl, hrisen []⟩
  next =>
    obtain ⟨t, hnext, hacts⟩ := judge_acts (s.selectRisen h []) h []
    exact ⟨t, hnext, (hrisen []).trans (acts_of_commandActs hacts)⟩
  next captured received _ =>
    dsimp only
    split
    next =>
      obtain ⟨t, hnext, hacts⟩ := judge_acts
        ((s.selectRisen h (sentBits captured (received ++ sdi).length)).deliver h captured) h (received ++ sdi)
      exact ⟨t, hnext, ((hrisen _).tail (.deliver _ h captured)).trans (acts_of_commandActs hacts)⟩
    next =>
      obtain ⟨t, hnext, hacts⟩ := judge_acts (s.selectRisen h (sentBits captured (received ++ sdi).length)) h
        (received ++ sdi)
      exact ⟨t, hnext, (hrisen _).trans (acts_of_commandActs hacts)⟩

theorem execSelectFall_acts (h : Port) (s : State) : ∃ t, execSelectFall h s = .next t ∧ Acts s t := by
  refine ⟨_, rfl, ?_⟩
  split
  iterate 2 exact (Act.link s h _).acts
  iterate 2 exact .refl

/-- A row that carries a command is the row of that command. -/
theorem toInstr_of_command {i : Instr} {h : Port} {tag : Byte} {c : Command} (hc : i.command = some (h, tag, c)) :
    c.toInstr h tag = i := by
  cases i <;> simp only [Instr.command, Option.some.injEq, Prod.mk.injEq, reduceCtorEq] at hc <;>
    (obtain ⟨rfl, rfl, rfl⟩ := hc; rfl)

/-- Every row is a run of acts. -/
theorem exec_acts (i : Instr) (s : State) : ∃ t, exec i s = .next t ∧ Acts s t := by
  cases hc : i.command with
  | some k =>
    obtain ⟨h, tag, c⟩ := k
    rw [← toInstr_of_command hc, exec_toInstr]
    obtain ⟨t, hnext, hacts⟩ := takeCommand_acts h tag c s
    exact ⟨t, hnext, acts_of_commandActs hacts⟩
  | none =>
    cases i with
    | deviceReset => exact ⟨_, rfl, (Act.reset s).acts⟩
    | transactionEnd h sdi => exact execTransactionEnd_acts h sdi s
    | selectFall h => exact execSelectFall_acts h s
    | timebaseAdvance pins order held => exact ⟨_, rfl, (Act.advance s pins order held).acts⟩
    | timerExpiry n chainOrder => exact ⟨_, rfl, (Act.expire s chainOrder (.timer n)).acts⟩
    | serviceExpiry h k => exact ⟨_, rfl, (Act.expire s [] (.service h k)).acts⟩
    | collectionExpiry i => exact ⟨_, rfl, (Act.expire s [] (.collection i)).acts⟩
    | affinityExpiry i => exact ⟨_, rfl, (Act.expire s [] (.affinity i)).acts⟩
    | _ => simp [Instr.command] at hc

/-- Settles O1: on a queue with a command at its front, a step is defined as its execution. -/
theorem stepTakesFrontCommand : Obligations.StepTakesFrontCommand := fun _ _ _ => rfl

/-- A property that does not look at the queue, and that every act keeps, is kept by every step. -/
theorem step_keeps {P : State → Prop} (hqueue : ∀ (s : State) (q : List Instr), P s → P { s with pending := q })
    (hact : ∀ s t : State, Act s t → P s → P t) {s t : State} (hs : P s) (hstep : step s = .next t) : P t := by
  cases hq : s.pending with
  | nil =>
    rw [step, hq] at hstep
    exact Host.Outcome.next.inj hstep ▸ hs
  | cons c rest =>
    rw [step, hq] at hstep
    obtain ⟨u, hnext, hacts⟩ := exec_acts c { s with pending := rest }
    obtain rfl := Host.Outcome.next.inj (hnext.symm.trans hstep)
    clear hnext hstep
    induction hacts with
    | refl => exact hqueue s rest hs
    | tail _ ha ih => exact hact _ _ ha ih

end Sys2Proof.Machine
end

section
/-! SUPPORT. The attention lines over a step (R42, R43). -/

namespace Sys2Proof.Machine

/-- Of a stack an offer reads the number of entries and the level of the top one (R40). -/
theorem offer_congr_stack {s t : State} {h : Port} (hp : t.pool = s.pool) (ht : t.token = s.token)
    (hstate : (t.port h).state = (s.port h).state) (hthreshold : (t.port h).threshold = (s.port h).threshold)
    (hlevel : t.serviceLevel h = s.serviceLevel h)
    (hlength : (t.port h).stack.length = (s.port h).stack.length) : t.offer h = s.offer h := by
  have hticket (i : SlotId) : t.ticketAt i = s.ticketAt i := by
    unfold State.ticketAt State.slotAt; rw [hp]
  have hpending (level : Nat) : t.pendingAt level = s.pendingAt level := by
    funext i; unfold State.pendingAt; rw [hticket]
  have hround (i : SlotId) (src : SourceId) : t.otherRound i src = s.otherRound i src := by
    unfold State.otherRound; rw [hp]; simp only [hticket]
  have hentitled (u : Ticket) : t.entitled h u = s.entitled h u := by
    unfold State.entitled State.eligibleFor State.tokenSet; rw [ht]
  have hcandidate : t.candidate h = s.candidate h := by
    funext i
    unfold State.candidate State.attached
    rw [hticket, hstate, hthreshold, hlength, hlevel]
    simp only [hentitled, hround]
  unfold State.offer State.pendingOrder
  rw [hcandidate, hp]
  simp only [hpending]

/-- After a recomputation every ATTN line follows its host's offer (R43). -/
theorem recompute_attention (s : State) : s.recompute.AttentionLaw := fun h => by
  rw [recompute_port, recompute_offer]

/-- A port replaced by one with the same line, state, threshold and stack leaves the lines with the offers. -/
theorem setPort_attention {s : State} {h : Port} {p : HostPort} (hattn : p.attn = (s.port h).attn)
    (hstate : p.state = (s.port h).state) (hthreshold : p.threshold = (s.port h).threshold)
    (hstack : p.stack = (s.port h).stack) (hs : s.AttentionLaw) : (s.setPort h p).AttentionLaw := fun g => by
  have hoffer : (s.setPort h p).offer g = s.offer g := by
    refine offer_congr rfl rfl ?_ ?_ ?_ <;> rw [State.setPort_port] <;> split <;> simp_all
  rw [hoffer, State.setPort_port, ← hs g]
  split
  next hg => rw [hg, hattn]
  next => rfl

/-- After a reset no host has an offer, and no ATTN line is low (R43). -/
theorem reset_attention (q : List Instr) : State.AttentionLaw { State.reset with pending := q } := fun h => by
  have hoffer : State.offer { State.reset with pending := q } h = none := by
    simp [State.offer, State.pendingOrder, State.reset]
  rw [hoffer]
  exact congrArg HostPort.attn (look_replicate HostPort.reset h)

/-- An extension leaves the length of the stack and the level on top of it, and so the offers. -/
theorem extend_attention {s : State} {h : Port} {e : Entry} {rest : List Entry} (expiry : Option Time) (n : Nat)
    (hstack : (s.port h).stack = e :: rest) (hs : s.AttentionLaw) :
    (s.setStack h ({ e with expiry := expiry, extensions := n } :: rest)).AttentionLaw := fun g => by
  have hoffer : (s.setStack h ({ e with expiry := expiry, extensions := n } :: rest)).offer g = s.offer g := by
    refine offer_congr_stack rfl rfl ?_ ?_ ?_ ?_ <;>
      simp only [serviceLevel_eq, State.setStack_port] <;> split <;> simp_all
  rw [hoffer, State.setStack_port, ← hs g]
  split
  next hg => rw [hg]
  next => rfl

/-- The reading of a fault record recomputes the offers, or leaves all that they read (R129). -/
theorem readFault_attention {s : State} (rest : List FaultRecord) (hs : s.AttentionLaw) :
    (s.readFault rest).AttentionLaw := by
  unfold State.readFault
  dsimp only
  split
  next => exact recompute_attention _
  next => exact hs

/-- Every act leaves the ATTN lines with the offers: it recomputes them, or it changes nothing that an offer
reads. -/
theorem act_attention {s t : State} (ha : Act s t) (hs : s.AttentionLaw) : t.AttentionLaw := by
  cases ha with
  | reset => exact reset_attention _
  | link | deliver => exact setPort_attention rfl rfl rfl rfl hs
  | advance => exact recompute_attention _
  | expire chainOrder e =>
    unfold State.expiryRow
    split
    next => exact recompute_attention _
    next => exact hs
  | command hc =>
    cases hc with
    | answer => exact setPort_attention rfl rfl rfl rfl hs
    | join | leave | eject | threshold | token | configure | flush | trigger | post | claim | popLapsed | retire => exact recompute_attention _
    | clearOverflow | setUpTimer | startTimer | stopTimer | loadTimer => exact hs
    | readFault => exact readFault_attention _ hs
    | extend expiry n hstack => exact extend_attention expiry n hstack hs

/-- Settles O59: the law does not look at the queue, and every act keeps it. -/
theorem stepKeepsAttention : Obligations.StepKeepsAttention := fun _ _ hs hstep =>
  step_keeps (P := State.AttentionLaw) (fun _ _ hs => hs) (fun _ _ => act_attention) hs hstep

end Sys2Proof.Machine
end

section
/-! SUPPORT. What the events, the departures and the configuration of a source leave as they are. -/

namespace Sys2Proof.Machine

/-! ## Changes of the pool alone -/

theorem recognisedChange_onlyPool (s : State) (n : LineId) (level : Bool) :
    OnlyPool s (s.recognisedChange n level) := by
  unfold State.recognisedChange
  dsimp only
  split
  case h_2 | h_3 => exact .refl s
  case h_7 | h_8 => exact withdraw_onlyPool s _
  all_goals exact occurrence_onlyPool s _ 0

theorem retireTicket_onlyPool (s : State) (h : Port) (hd : Handle) : OnlyPool s (s.retireTicket h hd) := by
  unfold State.retireTicket
  split
  · exact .refl s
  · split
    · exact settle_onlyPool s _ _
    · exact leaveRound_onlyPool s h _
    · exact .refl s

/-- The occurrence that a SOURCE_SET gives a source it makes held active, or a fault source it enables (R13, R16). -/
def State.occurrenceOnSet (s before : State) (src : SourceId) : State :=
  if (s.heldActive src && !before.heldActive src)
      || (src == faultSource && decide ((before.config src).level = 0) && decide ((s.config src).level ≠ 0)
        && !s.faults.records.isEmpty) then
    s.occurrence src
  else s

/-- The withdrawal that a SOURCE_SET makes while the line of its source is inactive (R13). -/
def State.withdrawInactive (s : State) (src : SourceId) : State :=
  if s.lineInactive src then s.withdraw src else s

/-- The loss of pending work of a source that a SOURCE_SET disables (R14). -/
def State.disableOff (s : State) (src : SourceId) : State :=
  if (s.config src).level = 0 then s.disable src else s

/-- The three parts of what follows the new record of a SOURCE_SET (R13, R14, R16). -/
theorem afterSourceSet_eq (s before : State) (src : SourceId) :
    s.afterSourceSet before src = ((s.occurrenceOnSet before src).withdrawInactive src).disableOff src := rfl

theorem occurrenceOnSet_onlyPool (s before : State) (src : SourceId) :
    OnlyPool s (s.occurrenceOnSet before src) := by
  unfold State.occurrenceOnSet
  split
  · exact occurrence_onlyPool s src 0
  · exact .refl s

theorem withdrawInactive_onlyPool (s : State) (src : SourceId) : OnlyPool s (s.withdrawInactive src) := by
  unfold State.withdrawInactive
  split
  · exact withdraw_onlyPool s src
  · exact .refl s

theorem disableOff_onlyPool (s : State) (src : SourceId) : OnlyPool s (s.disableOff src) := by
  unfold State.disableOff
  split
  · exact disable_onlyPool s src
  · exact .refl s

theorem afterSourceSet_onlyPool (s before : State) (src : SourceId) : OnlyPool s (s.afterSourceSet before src) :=
  ((occurrenceOnSet_onlyPool s before src).trans (withdrawInactive_onlyPool _ src)).trans (disableOff_onlyPool _ src)

theorem flushStep_onlyPool (s : State) (src : SourceId) : OnlyPool s (s.flushStep src) := by
  unfold State.flushStep
  split
  · exact occurrence_onlyPool s src 0
  · exact .refl s

/-- A flush empties the part, and what follows changes the pool alone (R124, R125). -/
theorem flush_onlyPool (s : State) : OnlyPool s.emptied (flushSources.foldl State.flushStep s.emptied) :=
  OnlyPool.foldl flushStep_onlyPool _ _

theorem releaseEntry_onlyPool (s : State) (h : Port) (e : Entry) : OnlyPool s (s.releaseEntry h e) := by
  unfold State.releaseEntry
  split
  · exact .refl s
  · split
    · exact .refl s
    · split
      · exact returnTicket_onlyPool s _
      · exact leaveRound_onlyPool s h _
      · exact .refl s

/-! ## The sample of a line -/

/-- A sample changes the pool and the lines alone (R4). -/
theorem sampleLine_frame (s : State) (n : LineId) (level : Bool) :
    s.sampleLine n level =
      { s with pool := (s.sampleLine n level).pool, lines := (s.sampleLine n level).lines } := by
  unfold State.sampleLine
  dsimp only
  split_ifs
  · rfl
  · rfl
  · rw [recognisedChange_onlyPool _ n level]; rfl
  · rfl

/-! ## The release of a host -/

/-- The emptying of a stack changes the pool and that stack alone, and leaves it empty (R89). -/
theorem releaseStack_frame (s : State) (h : Port) (es : List Entry) :
    s.releaseStack h es =
      { s with pool := (s.releaseStack h es).pool, ports := place s.ports h { s.port h with stack := [] } } := by
  induction es generalizing s with
  | nil => rfl
  | cons e rest ih =>
    rw [State.releaseStack, ih]
    have hentry := releaseEntry_onlyPool (s.setStack h rest) h e
    simp [hentry.timebase, hentry.sources, hentry.faultLevel, hentry.lines, hentry.ports, hentry.timers,
      hentry.token, hentry.faults, hentry.pending, hentry.port, State.setStack_port]

/-- A release changes the pool, the fault queue and the stack of its host, which it empties (R91). -/
theorem release_frame (s : State) (h : Port) :
    s.release h =
      { s with
        pool := (s.release h).pool, faults := (s.release h).faults
        ports := place s.ports h { s.port h with stack := [] } } := by
  have hstack := releaseStack_frame s h (s.port h).stack
  have hdropped := dropUnclaimed_onlyPool (s.releaseStack h (s.port h).stack) h
  have hrest : OnlyPoolFaults (s.releaseStack h (s.port h).stack) (s.release h) := by
    unfold State.release
    dsimp only
    split
    · exact hdropped.poolFaults
    · exact hdropped.poolFaults.trans (appendFault_onlyPoolFaults _ _)
  rw [hrest, hstack]

/-- The fault queue after a release: one record tells of the ACTIVE entries, if there were any (R91). -/
theorem release_faults (s : State) (h : Port) :
    (s.release h).faults =
      if s.activeEntries h = 0 then s.faults
      else s.faults.appended (.hostReleased h (s.activeEntries h) s.timebase) := by
  have hdropped : (((s.releaseStack h (s.port h).stack).dropUnclaimed h)).faults = s.faults := by
    rw [(dropUnclaimed_onlyPool _ h).faults, releaseStack_frame]
  unfold State.release
  dsimp only
  split
  · exact hdropped
  · rw [appendFault_faults, hdropped]

/-- A departure changes the pool, the fault queue, the timers of its host, and its port, which becomes DETACHED
with an empty stack (R91, R117, R141). -/
theorem depart_frame (s : State) (h : Port) :
    s.depart h =
      { s with
        pool := (s.depart h).pool, timers := (s.stopTimersOf h).timers
        faults := (s.release h).faults
        ports := place s.ports h { s.port h with stack := [], state := .detached } } := by
  have hended : s.endReservationsOf h = s.setPool (s.endReservationsOf h).pool := endReservationsOf_onlyPool s h
  have hfields := release_frame (s.endReservationsOf h) h
  have hfaults := release_faults (s.endReservationsOf h) h
  rw [State.activeEntries, (endReservationsOf_onlyPool s h).port, ← State.activeEntries] at hfaults
  have hdepart : s.depart h = (((((s.endReservationsOf h).release h).stopTimersOf h).setPort h
      { (((s.endReservationsOf h).release h).stopTimersOf h).port h with state := .detached })).setPool
        (s.depart h).pool := endReservationsOf_onlyPool _ h
  refine hdepart.trans ?_
  generalize (s.depart h).pool = p
  generalize (s.endReservationsOf h).release h = r at hfields hfaults
  generalize (s.endReservationsOf h).pool = q at hended
  rw [hended] at hfields hfaults
  rw [release_faults, hfields]
  simp only [State.stopTimersOf, State.setPort, State.setPool, State.port, State.timer, look_place_same,
    place_place] at hfaults ⊢
  rw [hfaults]
  rfl

theorem depart_port (s : State) (h g : Port) :
    (s.depart h).port g = if g = h then { s.port h with stack := [], state := .detached } else s.port g := by
  rw [depart_frame]
  exact look_place ..

theorem depart_timer (s : State) (h : Port) (n : TimerId) :
    (s.depart h).timer n = if (s.timer n).ownedBy h then (s.timer n).stopped else s.timer n := by
  rw [depart_frame]
  exact look_fill _ n

@[simp] theorem depart_token (s : State) (h : Port) : (s.depart h).token = s.token := by
  rw [depart_frame]

/-! ## DETACH and EJECT -/

@[simp] theorem portLeft_pool (s : State) (h : Port) : (s.portLeft h).pool = (s.depart h).pool := by
  rw [State.portLeft, recompute_pool]

@[simp] theorem portLeft_timers (s : State) (h : Port) : (s.portLeft h).timers = (s.depart h).timers := by
  rw [State.portLeft, recompute_timers]

@[simp] theorem portLeft_faults (s : State) (h : Port) : (s.portLeft h).faults = (s.depart h).faults := by
  rw [State.portLeft, recompute_faults]

@[simp] theorem ejectPort_pool (s : State) (h : Port) : (s.ejectPort h).pool = (s.depart h).pool := by
  rw [State.ejectPort, recompute_pool, State.setPort_pool]

@[simp] theorem ejectPort_timers (s : State) (h : Port) : (s.ejectPort h).timers = (s.depart h).timers := by
  rw [State.ejectPort, recompute_timers, State.setPort_timers]

@[simp] theorem ejectPort_faults (s : State) (h : Port) : (s.ejectPort h).faults = (s.depart h).faults := by
  rw [State.ejectPort, recompute_faults, State.setPort_faults]

@[simp] theorem ejectPort_token (s : State) (h : Port) : (s.ejectPort h).token = s.token := by
  rw [State.ejectPort, recompute_token, State.setPort_token, depart_token]

/-- A port after a DETACH of port h, the ATTN line apart (R141). -/
theorem portLeft_port (s : State) (h g : Port) :
    (s.portLeft h).port g = { (s.depart h).port g with attn := ((s.portLeft h).offer g).isSome } := by
  rw [State.portLeft, recompute_port, recompute_offer]
  rfl

/-- A port after an EJECT of port h, the ATTN line apart (R123). -/
theorem ejectPort_port (s : State) (h g : Port) :
    (s.ejectPort h).port g =
      { (s.depart h).port g with
        ejected := if g = h then true else ((s.depart h).port g).ejected
        attn := ((s.ejectPort h).offer g).isSome } := by
  rw [State.ejectPort, recompute_port, recompute_offer, State.setPort_port]
  split
  next hg => rw [hg]
  next => rfl

end Sys2Proof.Machine
end

section
/-! SUPPORT. The events of an advance: a property that each event keeps, and the move of the timebase keeps, is kept
by an advance and by every expiry row (R105, R106). -/

namespace Sys2Proof.Machine

/-- A property that the move of the timebase keeps, and with it every event that is due. -/
structure KeptByEvents (P : State → Prop) : Prop where
  move (s : State) : P s → P s.moveTimebase
  sample (s : State) (n : LineId) (level : Bool) : P s → P (s.sampleLine n level)
  step (s : State) (n : TimerId) (chainOrder : List TimerId) : (s.timer n).running = true → P s →
    P (s.stepTimer n chainOrder)
  lapse (s : State) (h : Port) (k : Fin 4) (e : Entry) : s.entryAt h k = some e → e.state = .active → P s →
    P (s.lapseEntry h k)
  collect (s : State) (i : SlotId) : P s → P (s.collect i)
  endReservation (s : State) (i : SlotId) : P s → P (s.endReservation i)

/-- Only an ACTIVE entry has a service expiry (R79). -/
theorem active_of_isDue {s : State} {h : Port} {k : Fin 4} (hd : s.isDue (.service h k) = true) :
    ∃ e, s.entryAt h k = some e ∧ e.state = .active ∧ e.expiry = some s.timebase := by
  unfold State.isDue at hd
  dsimp only at hd
  split at hd
  next => simp at hd
  next e he => exact ⟨e, he, by simpa using hd⟩

section
variable {P : State → Prop} (hP : KeptByEvents P)
include hP

/-- A property kept by the events is kept by the taking of one. -/
theorem KeptByEvents.takeEvent (pins : BitVec 32) (chainOrder : List TimerId) (s : State) (e : AdvanceEvent)
    (hs : P s) : P (s.takeEvent pins chainOrder e) := by
  unfold State.takeEvent
  split
  next hd =>
    cases e with
    | line n => exact hP.sample s n _ hs
    | timer n => exact hP.step s n chainOrder (Bool.and_eq_true_iff.1 hd).1 hs
    | service h k =>
      obtain ⟨e, he, hactive, -⟩ := active_of_isDue hd
      exact hP.lapse s h k e he hactive hs
    | collection i => exact hP.collect s i hs
    | affinity i => exact hP.endReservation s i hs
  next => exact hs

/-- A property kept by the events is kept by an advance, whatever its order and whatever it holds. -/
theorem KeptByEvents.advanced (s : State) (pins : BitVec 32) (order held : List AdvanceEvent) (hs : P s) :
    P (s.advanced pins order held) := by
  have hfold {f : State → AdvanceEvent → State} (hf : ∀ t e, P t → P (f t e)) (l : List AdvanceEvent) (t : State)
      (ht : P t) : P (l.foldl f t) := by
    induction l generalizing t with
    | nil => exact ht
    | cons e l ih => exact ih _ (hf t e ht)
  refine hfold (fun t e ht => ?_) _ _ (hP.move _ (hfold (fun t e => hP.takeEvent 0 [] t e) _ _ hs))
  unfold State.advanceEvent
  split
  · exact ht
  · exact hP.takeEvent pins _ t e ht

/-- A property kept by the events and by the recomputation of the offers is kept by an expiry row. -/
theorem KeptByEvents.expiryRow (hrecompute : ∀ t, P t → P t.recompute) (s : State) (chainOrder : List TimerId)
    (e : AdvanceEvent) (hs : P s) : P (s.expiryRow chainOrder e) := by
  unfold State.expiryRow
  split
  · exact hrecompute _ (hP.takeEvent 0 chainOrder s e hs)
  · exact hs

end

/-! ## What the events leave as it is -/

/-- The lapse of an entry is that entry marked, and then its ticket dealt with (R80). -/
theorem lapseEntry_of_entry {s : State} {h : Port} {k : Fin 4} {e : Entry} (he : s.entryAt h k = some e) :
    s.lapseEntry h k =
      (s.setStack h ((s.port h).stack.set k.val { e with state := .lapsed })).lapseTicket h e.handle := by
  rw [State.lapseEntry, he]

/-- The ports after the lapse of an entry: the entry alone is changed (R80). -/
theorem lapseEntry_port {s : State} {h : Port} {k : Fin 4} {e : Entry} (he : s.entryAt h k = some e) (g : Port) :
    (s.lapseEntry h k).port g =
      if g = h then { s.port h with stack := (s.port h).stack.set k.val { e with state := .lapsed } }
      else s.port g := by
  rw [lapseEntry_of_entry he, (lapseTicket_onlyPoolFaults _ h e.handle).port, State.setStack_port]

/-- Beside the ports, the lapse of an entry changes the pool and the fault queue alone. -/
theorem lapseEntry_frame (s : State) (h : Port) (k : Fin 4) :
    s.lapseEntry h k =
      { s with
        pool := (s.lapseEntry h k).pool, faults := (s.lapseEntry h k).faults
        ports := (s.lapseEntry h k).ports } := by
  cases he : s.entryAt h k with
  | none => rw [State.lapseEntry, he]
  | some e => rw [lapseEntry_of_entry he, lapseTicket_onlyPoolFaults _ h e.handle]; rfl

end Sys2Proof.Machine
end

section
/-! SUPPORT. The ranges of the timer records and the bound of the fault queue over a step (R108, R126). -/

namespace Sys2Proof.Machine

/-! ## The Timer Bank -/

/-- A timer with a step counted down (R109). -/
def Timer.counted (t : Timer) : Timer := { t with count := t.count - 1, stepDue := false }

/-- The steps of a list of timers, one after the other, with the timers that expire by them (R110, R111). -/
def stepAll (depth : Nat) (l : List TimerId) (acc : Vector Timer 8 × List TimerId) : Vector Timer 8 × List TimerId :=
  l.foldl (fun (acc : Vector Timer 8 × List TimerId) m =>
    ((stepBank depth m acc.1).1, acc.2 ++ (stepBank depth m acc.1).2)) acc

theorem stepAll_cons (depth : Nat) (m : TimerId) (l : List TimerId) (acc : Vector Timer 8 × List TimerId) :
    stepAll depth (m :: l) acc =
      stepAll depth l ((stepBank depth m acc.1).1, acc.2 ++ (stepBank depth m acc.1).2) := rfl

/-- A step that is not the last of its count is counted down (R109). -/
theorem stepBank_of_more {depth : Nat} {n : TimerId} {ts : Vector Timer 8} (hc : (look ts n).counted.count ≠ 0) :
    stepBank (depth + 1) n ts = (place ts n (look ts n).counted, []) := by
  unfold stepBank
  exact if_pos hc

/-- The last step of a count is an expiry, which steps the timers chained to its own (R110, R111). -/
theorem stepBank_of_last {depth : Nat} {n : TimerId} {ts : Vector Timer 8} (hc : (look ts n).counted.count = 0) :
    stepBank (depth + 1) n ts =
      (place (stepAll depth (chainedTo ts n) (place ts n (look ts n).counted, [])).1 n
          (look (stepAll depth (chainedTo ts n) (place ts n (look ts n).counted, [])).1 n).afterExpiry,
        n :: (stepAll depth (chainedTo ts n) (place ts n (look ts n).counted, [])).2) := by
  rw [stepBank]
  exact if_neg (not_not.2 hc)

/-- A property of the bank that a countdown and an expiry keep, whatever the timer, is kept by a step with all that
follows it. -/
theorem stepBank_keeps {Q : Vector Timer 8 → Prop} (hcount : ∀ ts n, Q ts → Q (place ts n (look ts n).counted))
    (hexpire : ∀ ts n, Q ts → Q (place ts n (look ts n).afterExpiry)) (depth : Nat) (n : TimerId)
    (ts : Vector Timer 8) (hq : Q ts) : Q (stepBank depth n ts).1 := by
  induction depth generalizing n ts with
  | zero => exact hq
  | succ depth ih =>
    by_cases hc : (look ts n).counted.count = 0
    · have hall (l : List TimerId) (acc : Vector Timer 8 × List TimerId) (hacc : Q acc.1) :
          Q (stepAll depth l acc).1 := by
        induction l generalizing acc with
        | nil => exact hacc
        | cons m l ihl => exact ihl _ (ih m acc.1 hacc)
      rw [stepBank_of_last hc]
      exact hexpire _ n (hall _ _ (hcount ts n hq))
    · rw [stepBank_of_more hc]
      exact hcount ts n hq

/-- The part of the law of the timers that holds in the midst of a step: all but the count. -/
def Timer.Framed (t : Timer) (n : TimerId) : Prop :=
  t.owner.isSome = t.running ∧ t.reload ≠ 0 ∧ (t.mode = .chained → t.chain ≠ n)

/-- A running timer has a count that is not 0 (R108). -/
def Timer.Counts (t : Timer) : Prop := t.running = true → t.count ≠ 0

/-- The law of the timers, by its two parts. -/
theorem timerLaw_iff {s : State} : s.TimerLaw ↔ ∀ n, (s.timer n).Framed n ∧ (s.timer n).Counts := by
  refine forall_congr' fun n => ?_
  unfold Timer.Framed Timer.Counts
  tauto

theorem Timer.Framed.counted {t : Timer} {n : TimerId} (h : t.Framed n) : t.counted.Framed n := h

theorem Timer.Framed.afterExpiry {t : Timer} {n : TimerId} (h : t.Framed n) : t.afterExpiry.Framed n := by
  obtain ⟨howner, hreload, hchain⟩ := h
  unfold Timer.afterExpiry
  split
  · exact ⟨howner, hreload, hchain⟩
  · exact ⟨howner, hreload, hchain⟩
  · exact ⟨rfl, hreload, hchain⟩

/-- An expired timer has reloaded a count that is not 0, or has stopped (R111). -/
theorem Timer.Framed.afterExpiry_counts {t : Timer} {n : TimerId} (h : t.Framed n) : t.afterExpiry.Counts := by
  unfold Timer.afterExpiry
  split
  · exact fun _ => h.2.1
  · exact fun _ => h.2.1
  · exact nofun

/-- All but the counts holds of every timer of the bank. -/
def BankFramed (ts : Vector Timer 8) : Prop := ∀ m, (look ts m).Framed m

theorem BankFramed.place {ts : Vector Timer 8} (h : BankFramed ts) {n : TimerId} {t : Timer} (ht : t.Framed n) :
    BankFramed (place ts n t) := fun m => by
  rw [look_place]
  split
  next hm => exact hm ▸ ht
  next => exact h m

theorem stepBank_framed (depth : Nat) (n : TimerId) (ts : Vector Timer 8) (h : BankFramed ts) :
    BankFramed (stepBank depth n ts).1 :=
  stepBank_keeps (fun _ n h => h.place (h n).counted) (fun _ n h => h.place (h n).afterExpiry) depth n ts h

/-- A step leaves no count at 0 but those of the timers in whose expiry it comes. -/
theorem stepBank_counts (depth : Nat) (n : TimerId) (ts : Vector Timer 8) (expiring : List TimerId)
    (hf : BankFramed ts) (hc : ∀ m, m ∉ expiring → (look ts m).Counts) :
    ∀ m, m ∉ expiring → (look (stepBank depth n ts).1 m).Counts := by
  induction depth generalizing n ts expiring with
  | zero => exact hc
  | succ depth ih =>
    by_cases hlast : (look ts n).counted.count = 0
    · have hall (l : List TimerId) (acc : Vector Timer 8 × List TimerId) (hframed : BankFramed acc.1)
          (hacc : ∀ m, m ∉ n :: expiring → (look acc.1 m).Counts) :
          BankFramed (stepAll depth l acc).1
            ∧ ∀ m, m ∉ n :: expiring → (look (stepAll depth l acc).1 m).Counts := by
        induction l generalizing acc with
        | nil => exact ⟨hframed, hacc⟩
        | cons m l ihl => exact ihl _ (stepBank_framed depth m acc.1 hframed) (ih m acc.1 _ hframed hacc)
      obtain ⟨hframed, hcounts⟩ := hall (chainedTo ts n) (Sys2Proof.place ts n (look ts n).counted, [])
        (hf.place (hf n).counted) fun m hm => by
          rw [look_place_of_ne _ _ fun h => hm (by simp [h])]
          exact hc m fun h => hm (by simp [h])
      intro m hm
      rw [stepBank_of_last hlast]
      dsimp only
      rw [look_place]
      split
      next => exact (hframed n).afterExpiry_counts
      next hne => exact hcounts m (by simp [hne, hm])
    · intro m hm
      rw [stepBank_of_more hlast]
      dsimp only
      rw [look_place]
      split
      next => exact fun _ => hlast
      next => exact hc m hm

/-- The law of the timers reads the timers alone. -/
theorem timerLaw_congr {s t : State} (h : t.timers = s.timers) (hs : s.TimerLaw) : t.TimerLaw := fun n => by
  have htimer : t.timer n = s.timer n := by rw [State.timer, State.timer, h]
  rw [htimer]
  exact hs n

/-- A timer written with a record that keeps the law leaves the law. -/
theorem setTimer_timerLaw {s : State} {n : TimerId} {x : Timer} (hx : x.Framed n) (hc : x.Counts)
    (hs : s.TimerLaw) : (s.setTimer n x).TimerLaw := timerLaw_iff.2 fun m => by
  rw [State.setTimer_timer]
  split
  next hm => exact hm ▸ ⟨hx, hc⟩
  next => exact timerLaw_iff.1 hs m

/-- A due step, with all that follows it, keeps the law of the timers (R109 to R111). -/
theorem stepTimer_timerLaw {s : State} (n : TimerId) (chainOrder : List TimerId) (hs : s.TimerLaw) :
    (s.stepTimer n chainOrder).TimerLaw := by
  have hlaw := timerLaw_iff.1 hs
  refine timerLaw_iff.2 fun m => ?_
  rw [State.timer, stepTimer_timers]
  split
  · exact ⟨stepBank_framed 8 n s.timers (fun k => (hlaw k).1) m,
      stepBank_counts 8 n s.timers [] (fun k => (hlaw k).1) (fun k _ => (hlaw k).2) m (by simp)⟩
  · rw [look_place]
    split
    next hm => exact hm ▸ hlaw n
    next => exact hlaw m

/-- The move of the timebase marks steps as due, and changes no timer otherwise. -/
theorem moveTimebase_timer (s : State) (n : TimerId) :
    s.moveTimebase.timer n = (s.timer n).markStep (s.timebase + 1) := look_fill _ n

theorem timerLaw_events : KeptByEvents State.TimerLaw where
  move s hs := fun n => by rw [moveTimebase_timer]; exact hs n
  sample s n level hs := timerLaw_congr (by rw [sampleLine_frame]) hs
  step s n chainOrder _ hs := stepTimer_timerLaw n chainOrder hs
  lapse s h k _ _ _ hs := timerLaw_congr (by rw [lapseEntry_frame]) hs
  collect s i hs := timerLaw_congr (collect_onlyPoolFaults s i).timers hs
  endReservation s i hs := timerLaw_congr (endReservation_onlyPool s i).timers hs

/-- What TIMER_SETUP writes keeps the law: it refuses a reload of 0 and a chain to the timer itself (R112). -/
theorem setUp_framed {t x : Timer} {n : TimerId} {mode prescale gate chain : Byte} {reload : BitVec 16}
    (hx : t.setUp n mode prescale reload gate chain = some x) (ht : t.Framed n) :
    x.Framed n ∧ x.running = t.running := by
  unfold Timer.setUp at hx
  split at hx
  next m p g c _ _ _ _ =>
    split at hx
    next => cases hx
    next hok =>
      obtain rfl := Option.some.inj hx
      obtain ⟨hreload, -, hchain⟩ : reload ≠ 0 ∧ _ ∧ ¬(m = .chained ∧ c = n) := by
        simpa only [not_or] using hok
      exact ⟨⟨ht.1, hreload, fun hm => by simpa [show m = .chained from hm] using hchain⟩, rfl⟩
  next => cases hx

/-- TIMER_SETUP leaves the owner of a timer, and whether it runs (R112). -/
theorem setUp_ownedBy {t x : Timer} {n : TimerId} {mode prescale gate chain : Byte} {reload : BitVec 16}
    (hx : t.setUp n mode prescale reload gate chain = some x) (g : Port) : x.ownedBy g = t.ownedBy g := by
  unfold Timer.setUp at hx
  split at hx
  next =>
    split at hx
    next => cases hx
    next => obtain rfl := Option.some.inj hx; rfl
  next => cases hx

/-- A timer that its departing owner leaves behind stops, and every other stays (R117). -/
theorem depart_timerLaw {s : State} (h : Port) (hs : s.TimerLaw) : (s.depart h).TimerLaw :=
  timerLaw_iff.2 fun n => by
    obtain ⟨hframed, hcounts⟩ := timerLaw_iff.1 hs n
    rw [depart_timer]
    split
    · exact ⟨⟨rfl, hframed.2⟩, nofun⟩
    · exact ⟨hframed, hcounts⟩

theorem reset_timerLaw (q : List Instr) : State.TimerLaw { State.reset with pending := q } := fun n => by
  have htimer : State.timer { State.reset with pending := q } n = Timer.reset := look_replicate Timer.reset n
  rw [htimer]
  exact ⟨rfl, nofun, (by decide : (1 : BitVec 16) ≠ 0), nofun⟩

/-- Every act keeps the ranges of the timer records. -/
theorem act_timerLaw {s t : State} (ha : Act s t) (hs : s.TimerLaw) : t.TimerLaw := by
  have hlaw := timerLaw_iff.1 hs
  cases ha with
  | reset => exact reset_timerLaw _
  | link | deliver => exact hs
  | advance pins order held => exact timerLaw_events.advanced s pins order held hs
  | expire chainOrder e => exact timerLaw_events.expiryRow (fun _ ht => ht) s chainOrder e hs
  | command hc =>
    cases hc with
    | answer | join | threshold | token | clearOverflow | claim | popLapsed | extend => exact hs
    | leave => exact timerLaw_congr (portLeft_timers s _) (depart_timerLaw _ hs)
    | eject => exact timerLaw_congr (ejectPort_timers s _) (depart_timerLaw _ hs)
    | @configure src c r =>
      refine timerLaw_congr ((afterSourceSet_onlyPool (s.setConfig src r) s src).timers.trans ?_) hs
      unfold State.setConfig
      split <;> rfl
    | flush => exact timerLaw_congr (by rw [flush_eq, recompute_timers, (flush_onlyPool s).timers, State.emptied]) hs
    | @readFault r rest =>
      refine timerLaw_congr ?_ hs
      unfold State.readFault
      dsimp only
      split
      · exact (withdraw_onlyPool _ faultSource).timers
      · rfl
    | trigger | post => exact timerLaw_congr (occurrence_onlyPool s _ _).timers hs
    | retire => exact timerLaw_congr (retireTicket_onlyPool _ _ _).timers hs
    | @setUpTimer n _ _ _ _ _ x hr hx =>
      obtain ⟨hframed, hrunning⟩ := setUp_framed hx (hlaw n).1
      exact setTimer_timerLaw hframed (fun h => by simp [hrunning, hr] at h) hs
    | @startTimer _ n => exact setTimer_timerLaw ⟨rfl, (hlaw n).1.2⟩ (fun _ => (hlaw n).1.2.1) hs
    | stopTimer n => exact setTimer_timerLaw ⟨rfl, (hlaw n).1.2⟩ nofun hs
    | loadTimer n hr => exact setTimer_timerLaw ⟨(hlaw n).1.1, hr, (hlaw n).1.2.2⟩ (hlaw n).2 hs

/-! ## The fault queue -/

/-- The append of a record to a queue within its eight keeps it there: a full queue drops the record (R127). -/
theorem appended_length {q : FaultQueue} (r : FaultRecord) (hq : q.records.length ≤ Config.faultDepth) :
    (q.appended r).records.length ≤ Config.faultDepth := by
  unfold FaultQueue.appended
  split
  next hlt => simpa using hlt
  next => exact hq

theorem faultLaw_congr {s t : State} (h : t.faults = s.faults) (hs : s.FaultLaw) : t.FaultLaw := by
  rw [State.FaultLaw, h]
  exact hs

theorem appendFault_faultLaw {s : State} (r : FaultRecord) (hs : s.FaultLaw) : (s.appendFault r).FaultLaw := by
  rw [State.FaultLaw, appendFault_faults]
  exact appended_length r hs

theorem lapseTicket_faultLaw {s : State} (h : Port) (hd : Handle) (hs : s.FaultLaw) :
    (s.lapseTicket h hd).FaultLaw := by
  rcases lapseTicket_cases s h hd with ⟨-, heq⟩ | ⟨u, g, -, -, heq⟩ | ⟨u, o, c, x, -, -, heq⟩ <;> rw [heq]
  · exact hs
  · unfold State.lapseSingle
    split
    · exact appendFault_faultLaw _ (faultLaw_congr (freeTicket_onlyPool s _).faults hs)
    · exact faultLaw_congr (returnTicket_onlyPool _ _).faults hs
  · exact appendFault_faultLaw _ (faultLaw_congr (leaveRound_onlyPool s h _).faults hs)

theorem collect_faultLaw {s : State} (i : SlotId) (hs : s.FaultLaw) : (s.collect i).FaultLaw := by
  have hfold (l : List Port) (f : Port → FaultRecord) (t : State) (ht : t.FaultLaw) :
      (l.foldl (fun st h => st.appendFault (f h)) t).FaultLaw := by
    induction l generalizing t with
    | nil => exact ht
    | cons h l ih => exact ih _ (appendFault_faultLaw _ ht)
  unfold State.collect
  split
  · exact hs
  · split
    · refine hfold _ _ _ ?_
      split
      · exact faultLaw_congr (settle_onlyPool s i _).faults hs
      · exact hs
    · exact hs

theorem faultLaw_events : KeptByEvents State.FaultLaw where
  move _ hs := hs
  sample s n level hs := faultLaw_congr (by rw [sampleLine_frame]) hs
  step s n chainOrder _ hs := faultLaw_congr (by rw [stepTimer_frame]) hs
  lapse s h k e he _ hs := by
    rw [lapseEntry_of_entry he]
    exact lapseTicket_faultLaw h e.handle hs
  collect s i hs := collect_faultLaw i hs
  endReservation s i hs := faultLaw_congr (endReservation_onlyPool s i).faults hs

theorem depart_faultLaw {s : State} (h : Port) (hs : s.FaultLaw) : (s.depart h).FaultLaw := by
  rw [depart_frame, State.FaultLaw, release_faults]
  split
  · exact hs
  · exact appended_length _ hs

/-- Every act keeps the bound of the fault queue. -/
theorem act_faultLaw {s t : State} (ha : Act s t) (hs : s.FaultLaw) : t.FaultLaw := by
  cases ha with
  | reset => exact Nat.zero_le _
  | link | deliver => exact hs
  | advance pins order held => exact faultLaw_events.advanced s pins order held hs
  | expire chainOrder e => exact faultLaw_events.expiryRow (fun _ ht => ht) s chainOrder e hs
  | command hc =>
    cases hc with
    | answer | join | threshold | token | clearOverflow | claim | popLapsed | extend | setUpTimer | startTimer
    | stopTimer | loadTimer => exact hs
    | leave => exact faultLaw_congr (portLeft_faults s _) (depart_faultLaw _ hs)
    | eject => exact faultLaw_congr (ejectPort_faults s _) (depart_faultLaw _ hs)
    | @configure src c r =>
      refine faultLaw_congr ((afterSourceSet_onlyPool (s.setConfig src r) s src).faults.trans ?_) hs
      unfold State.setConfig
      split <;> rfl
    | flush => exact faultLaw_congr (by rw [flush_eq, recompute_faults, (flush_onlyPool s).faults, State.emptied]) hs
    | @readFault r rest hq =>
      have hrest : rest.length ≤ Config.faultDepth := by
        rw [State.FaultLaw, hq] at hs
        exact (Nat.le_succ _).trans hs
      unfold State.readFault
      dsimp only
      split
      · exact faultLaw_congr (withdraw_onlyPool { s with faults := _ } faultSource).faults hrest
      · exact hrest
    | trigger | post => exact faultLaw_congr (occurrence_onlyPool s _ _).faults hs
    | retire => exact faultLaw_congr (retireTicket_onlyPool _ _ _).faults hs

/-- Settles O60: neither law looks at the queue, and every act keeps each of them. -/
theorem stepKeepsTimerAndFaultLaws : Obligations.StepKeepsTimerAndFaultLaws := fun _ _ htimer hfault hstep =>
  ⟨step_keeps (P := State.TimerLaw) (fun _ _ hs => hs) (fun _ _ => act_timerLaw) htimer hstep,
    step_keeps (P := State.FaultLaw) (fun _ _ hs => hs) (fun _ _ => act_faultLaw) hfault hstep⟩

end Sys2Proof.Machine
end

section
/-! SUPPORT. The stacks, the token and the DETACHED ports over a step (R63, R118, R139). -/

namespace Sys2Proof.Machine

/-! ## The stacks -/

/-- A stack within its four entries, its levels strictly rising from bottom to top (R63). -/
def StackRises (es : List Entry) : Prop :=
  es.length ≤ Config.stackDepth ∧ es.Pairwise fun upper lower => lower.level < upper.level

/-- Of a stack the law reads the levels alone. -/
theorem stackRises_congr {es fs : List Entry} (h : fs.map Entry.level = es.map Entry.level) (hs : StackRises es) :
    StackRises fs := by
  obtain ⟨hlength, hlevels⟩ := hs
  refine ⟨?_, ?_⟩
  · have := congrArg List.length h
    rw [List.length_map, List.length_map] at this
    rwa [this]
  · rw [← List.pairwise_map (f := Entry.level) (R := fun a b => b < a)] at hlevels ⊢
    rwa [h]

theorem stackRises_nil : StackRises [] := ⟨Nat.zero_le _, .nil⟩

theorem stackRises_tail {e : Entry} {rest : List Entry} (hs : StackRises (e :: rest)) : StackRises rest :=
  ⟨(Nat.le_succ _).trans hs.1, (List.pairwise_cons.1 hs.2).2⟩

/-- An entry above the top of a stack with room on it leaves a stack in order. -/
theorem stackRises_cons {e : Entry} {es : List Entry} (hroom : es.length < Config.stackDepth)
    (habove : (es.head?.map Entry.level).getD 0 < e.level) (hs : StackRises es) : StackRises (e :: es) := by
  refine ⟨hroom, List.pairwise_cons.2 ⟨fun x hx => ?_, hs.2⟩⟩
  cases es with
  | nil => cases hx
  | cons top rest =>
    rcases List.mem_cons.1 hx with rfl | hx
    · exact habove
    · exact lt_trans (List.rel_of_pairwise_cons hs.2 hx) habove

/-- The marking of an entry leaves the levels of its stack. -/
theorem map_level_set_lapsed {es : List Entry} {k : Nat} {e : Entry} (he : es[k]? = some e) :
    (es.set k { e with state := .lapsed }).map Entry.level = es.map Entry.level := by
  rw [List.map_set]
  refine List.ext_getElem? fun j => ?_
  rw [List.getElem?_set]
  split
  next hj =>
    subst hj
    have hk := (List.getElem?_eq_some_iff.1 he).1
    rw [if_pos (by simpa using hk), List.getElem?_map, he, Option.map_some]
  next => rfl

/-- The law of the stacks reads the stacks alone. -/
theorem stackLaw_congr {s t : State} (h : ∀ g, (t.port g).stack = (s.port g).stack) (hs : s.StackLaw) :
    t.StackLaw := fun g => by
  rw [h g]
  exact hs g

theorem stackLaw_of_ports {s t : State} (h : t.ports = s.ports) (hs : s.StackLaw) : t.StackLaw :=
  stackLaw_congr (fun g => by rw [State.port, State.port, h]) hs

/-- A port replaced by one whose stack keeps the law leaves the law. -/
theorem setPort_stackLaw {s : State} {h : Port} {p : HostPort} (hp : StackRises p.stack) (hs : s.StackLaw) :
    (s.setPort h p).StackLaw := fun g => by
  rw [State.setPort_port]
  split
  · exact hp
  · exact hs g

theorem recompute_stackLaw {s : State} (hs : s.StackLaw) : s.recompute.StackLaw :=
  stackLaw_congr (fun g => by rw [recompute_port]) hs

/-- The claim of an offer pushes an entry above the service level, on a stack with room (R40, R54). -/
theorem claimTicket_stackLaw {s : State} {h : Port} {i : SlotId} {u : Ticket} (ho : s.offer h = some i)
    (hu : s.ticketAt i = some u) (hs : s.StackLaw) : (s.claimTicket h i u).StackLaw := by
  obtain ⟨v, hv, -, -, ⟨-, hlevel⟩, hroom, -⟩ := candidate_iff.1 (offer_attached ho).1
  obtain rfl := Option.mem_unique hu hv
  rw [serviceLevel_eq] at hlevel
  exact setPort_stackLaw (s := s.setTicket i _) (stackRises_cons hroom hlevel (hs h)) hs

theorem depart_stackLaw {s : State} (h : Port) (hs : s.StackLaw) : (s.depart h).StackLaw := fun g => by
  rw [depart_port]
  split
  · exact stackRises_nil
  · exact hs g

/-- The move of the timebase leaves the ports but for the advances since their last rise (R132). -/
theorem moveTimebase_port (s : State) (g : Port) :
    s.moveTimebase.port g =
      { s.port g with
        link := { (s.port g).link with sinceRise := min Config.selectGap ((s.port g).link.sinceRise + 1) } } :=
  look_fill _ g

theorem stackLaw_events : KeptByEvents State.StackLaw where
  move s hs := fun g => by
    rw [moveTimebase_port]
    exact hs g
  sample s n level hs := stackLaw_of_ports (by rw [sampleLine_frame]) hs
  step s n chainOrder _ hs := stackLaw_of_ports (by rw [stepTimer_frame]) hs
  lapse s h k e he _ hs := fun g => by
    rw [lapseEntry_port he]
    split
    · exact stackRises_congr (map_level_set_lapsed he) (hs h)
    · exact hs g
  collect s i hs := stackLaw_of_ports (collect_onlyPoolFaults s i).ports hs
  endReservation s i hs := stackLaw_of_ports (endReservation_onlyPool s i).ports hs

theorem reset_port (q : List Instr) (h : Port) :
    State.port { State.reset with pending := q } h = HostPort.reset := look_replicate HostPort.reset h

/-- The ports after a SOURCE_SET are those before it, the ATTN lines apart (R11). -/
theorem configured_ports (s : State) (src : SourceId) (r : SourceRecord) :
    ((s.setConfig src r).afterSourceSet s src).ports = s.ports := by
  rw [(afterSourceSet_onlyPool (s.setConfig src r) s src).ports, State.setConfig]
  split <;> rfl

/-- The ports after a FAULT_READ are those before it, the ATTN lines and the response apart (R128). -/
theorem readFault_port (s : State) (rest : List FaultRecord) (g : Port) :
    (s.readFault rest).port g =
      if rest.isEmpty then { s.port g with attn := ((s.readFault rest).offer g).isSome } else s.port g := by
  unfold State.readFault
  dsimp only
  split
  · rw [recompute_port, recompute_offer, (withdraw_onlyPool _ faultSource).port]; rfl
  · rfl

/-- The ports after a FLUSH, the ATTN lines apart (R124). -/
theorem flush_port (s : State) (g : Port) :
    s.flush.port g = { s.emptied.port g with attn := (s.flush.offer g).isSome } := by
  rw [flush_eq, recompute_port, recompute_offer, (flush_onlyPool s).port]

theorem reset_stackLaw (q : List Instr) : State.StackLaw { State.reset with pending := q } := fun h => by
  rw [reset_port]
  exact stackRises_nil

/-- Every act keeps the stacks in order: it leaves them, marks or takes off an entry, empties one, or pushes an entry
on a stack with room, above its top. -/
theorem act_stackLaw {s t : State} (ha : Act s t) (hs : s.StackLaw) : t.StackLaw := by
  cases ha with
  | reset => exact reset_stackLaw _
  | link h | deliver h => exact setPort_stackLaw (hs h) hs
  | advance pins order held => exact recompute_stackLaw (stackLaw_events.advanced s pins order held hs)
  | expire chainOrder e => exact stackLaw_events.expiryRow (fun _ => recompute_stackLaw) s chainOrder e hs
  | command hc =>
    cases hc with
    | answer h => exact setPort_stackLaw (hs h) hs
    | @join h => exact recompute_stackLaw (setPort_stackLaw (hs h) hs)
    | leave => exact stackLaw_congr (fun g => by rw [portLeft_port]) (depart_stackLaw _ hs)
    | eject => exact stackLaw_congr (fun g => by rw [ejectPort_port]) (depart_stackLaw _ hs)
    | threshold h v => exact recompute_stackLaw (setPort_stackLaw (hs h) hs)
    | token => exact recompute_stackLaw hs
    | configure => exact recompute_stackLaw (stackLaw_of_ports (configured_ports ..) hs)
    | flush => exact fun g => by rw [flush_port, emptied_port]; exact stackRises_nil
    | clearOverflow | setUpTimer | startTimer | stopTimer | loadTimer => exact hs
    | readFault => exact stackLaw_congr (fun g => by rw [readFault_port]; split <;> rfl) hs
    | trigger | post => exact recompute_stackLaw (stackLaw_of_ports (occurrence_onlyPool s _ _).ports hs)
    | claim ho hu => exact recompute_stackLaw (claimTicket_stackLaw ho hu hs)
    | @popLapsed h e rest hstack =>
      exact recompute_stackLaw (setPort_stackLaw (stackRises_tail (hstack ▸ hs h)) hs)
    | @retire h e rest hstack =>
      refine recompute_stackLaw (stackLaw_of_ports (retireTicket_onlyPool _ _ _).ports ?_)
      exact setPort_stackLaw (stackRises_tail (hstack ▸ hs h)) hs
    | @extend h e rest expiry n hstack =>
      exact setPort_stackLaw (stackRises_congr (es := e :: rest) rfl (hstack ▸ hs h)) hs

/-! ## The token -/

/-- An act other than a reset, a departure, a TAKE and a HANDOVER leaves the token, and no act but a departure
detaches a port. -/
theorem tokenLaw_congr {s t : State} (htoken : t.token = s.token)
    (hstate : ∀ g, s.attached g = true → t.attached g = true) (hs : s.TokenLaw) : t.TokenLaw := fun g hg => by
  rw [htoken] at hg
  exact hstate g (hs g hg)

theorem attached_iff {s : State} {g : Port} : s.attached g = true ↔ (s.port g).state = .attached := by
  simp [State.attached]

/-- A port whose state stays is ATTACHED as before. -/
theorem attached_congr {s t : State} (h : ∀ g, (t.port g).state = (s.port g).state) (g : Port) :
    t.attached g = s.attached g := by
  rw [State.attached, State.attached, h]

@[simp] theorem recompute_attached (s : State) (g : Port) : s.recompute.attached g = s.attached g :=
  attached_congr (fun g => by rw [recompute_port]) g

/-- A port replaced by one in the same state leaves the states of the ports. -/
theorem setPort_attached {s : State} {h : Port} {p : HostPort} (hp : p.state = (s.port h).state) (g : Port) :
    (s.setPort h p).attached g = s.attached g :=
  attached_congr (fun g => by rw [State.setPort_port]; split <;> simp_all) g

theorem depart_attached (s : State) (h g : Port) :
    (s.depart h).attached g = (s.attached g && !decide (g = h)) := by
  rw [State.attached, State.attached, depart_port]
  by_cases hg : g = h <;> simp [hg]

theorem portLeft_attached (s : State) (h g : Port) :
    (s.portLeft h).attached g = (s.attached g && !decide (g = h)) := by
  rw [← depart_attached]
  exact attached_congr (fun g => by rw [portLeft_port]) g

theorem ejectPort_attached (s : State) (h g : Port) :
    (s.ejectPort h).attached g = (s.attached g && !decide (g = h)) := by
  rw [← depart_attached]
  exact attached_congr (fun g => by rw [ejectPort_port]) g

@[simp] theorem portLeft_token (s : State) (h : Port) :
    (s.portLeft h).token = if s.token = some h then none else s.token := by
  rw [State.portLeft, recompute_token]
  simp

/-- The states of the ports and the token after an event are those before it. -/
structure SameStanding (s t : State) : Prop where
  token : t.token = s.token
  state (g : Port) : (t.port g).state = (s.port g).state

theorem SameStanding.refl (s : State) : SameStanding s s := ⟨rfl, fun _ => rfl⟩

theorem sameStanding_of_ports {s t : State} (htoken : t.token = s.token) (hports : t.ports = s.ports) :
    SameStanding s t := ⟨htoken, fun g => by rw [State.port, State.port, hports]⟩

theorem sameStanding_events (a : State) : KeptByEvents (SameStanding a) where
  move s hs := ⟨hs.token, fun g => by
    rw [moveTimebase_port]
    exact hs.state g⟩
  sample s n level hs := by
    rw [sampleLine_frame]
    exact ⟨hs.token, hs.state⟩
  step s n chainOrder _ hs := by
    rw [stepTimer_frame]
    exact ⟨hs.token, hs.state⟩
  lapse s h k e he _ hs := by
    refine ⟨?_, fun g => ?_⟩
    · rw [lapseEntry_frame]
      exact hs.token
    · rw [lapseEntry_port he]
      split
      next hg => rw [hg]; exact hs.state h
      next => exact hs.state g
  collect s i hs := by
    have hframe := collect_onlyPoolFaults s i
    exact ⟨hframe.token.trans hs.token, fun g => by rw [hframe.port, hs.state]⟩
  endReservation s i hs := by
    have hframe := endReservation_onlyPool s i
    exact ⟨hframe.token.trans hs.token, fun g => by rw [hframe.port, hs.state]⟩

theorem SameStanding.recompute {s t : State} (h : SameStanding s t) : SameStanding s t.recompute :=
  ⟨h.token, fun g => by rw [recompute_port]; exact h.state g⟩

/-- A port replaced by one in the same state leaves the standing. -/
theorem sameStanding_setPort {s : State} {h : Port} {p : HostPort} (hp : p.state = (s.port h).state) :
    SameStanding s (s.setPort h p) :=
  ⟨rfl, fun g => by rw [State.setPort_port]; split <;> simp_all⟩

theorem claimTicket_sameStanding (s : State) (h : Port) (i : SlotId) (u : Ticket) :
    SameStanding s (s.claimTicket h i u) :=
  ⟨rfl, fun g => by rw [State.claimTicket, State.setStack_port]; split <;> simp_all [State.port]⟩

/-- What an act can do to the token and to the states of the ports. -/
theorem act_standing {s t : State} (ha : Act s t) :
    SameStanding s t
    ∨ (∃ q, t = { State.reset with pending := q })
    ∨ (∃ h, (s.port h).state = .detached ∧ t = s.portJoined h)
    ∨ (∃ h, s.attached h = true ∧ t = s.portLeft h)
    ∨ (∃ h g, s.token = some h ∧ g ≠ h ∧ s.attached g = true ∧ t = s.ejectPort g)
    ∨ ∃ g, s.attached g = true ∧ t = State.recompute { s with token := some g } := by
  cases ha with
  | reset => exact .inr (.inl ⟨_, rfl⟩)
  | link | deliver => refine .inl (sameStanding_setPort ?_); rfl
  | advance pins order held => exact .inl ((sameStanding_events s).advanced s pins order held (.refl s)).recompute
  | expire chainOrder e =>
    exact .inl ((sameStanding_events s).expiryRow (fun _ => SameStanding.recompute) s chainOrder e (.refl s))
  | command hc =>
    cases hc with
    | join hd => exact .inr (.inr (.inl ⟨_, hd, rfl⟩))
    | leave ha => exact .inr (.inr (.inr (.inl ⟨_, ha, rfl⟩)))
    | eject ht hne hg => exact .inr (.inr (.inr (.inr (.inl ⟨_, _, ht, hne, hg, rfl⟩))))
    | token hg => exact .inr (.inr (.inr (.inr (.inr ⟨_, hg, rfl⟩))))
    | answer | extend => refine .inl (sameStanding_setPort ?_); rfl
    | threshold | popLapsed => refine .inl (sameStanding_setPort ?_).recompute; rfl
    | configure =>
      refine .inl (sameStanding_of_ports ?_ (configured_ports ..)).recompute
      rw [(afterSourceSet_onlyPool _ s _).token, State.setConfig]
      split <;> rfl
    | flush =>
      refine .inl ⟨?_, fun g => by rw [flush_port, emptied_port]⟩
      rw [flush_eq, recompute_token, (flush_onlyPool s).token, State.emptied]
    | clearOverflow | setUpTimer | startTimer | stopTimer | loadTimer => exact .inl ⟨rfl, fun _ => rfl⟩
    | readFault =>
      refine .inl ⟨?_, fun g => by rw [readFault_port]; split <;> rfl⟩
      unfold State.readFault
      dsimp only
      split
      · exact (withdraw_onlyPool _ faultSource).token
      · rfl
    | trigger | post =>
      refine .inl (sameStanding_of_ports ?_ ?_).recompute
      · exact (occurrence_onlyPool s _ _).token
      · exact (occurrence_onlyPool s _ _).ports
    | @claim h i u => exact .inl (claimTicket_sameStanding s h i u).recompute
    | @retire h e rest =>
      have hframe := retireTicket_onlyPool (s.setStack h rest) h e.handle
      refine .inl (SameStanding.recompute ⟨hframe.token, fun g => ?_⟩)
      rw [hframe.port, State.setStack_port]
      split <;> simp_all

/-- Every act keeps the token with an ATTACHED port: a departing holder loses it, and only another port than the
holder is ejected. -/
theorem act_tokenLaw {s t : State} (ha : Act s t) (hs : s.TokenLaw) : t.TokenLaw := by
  rcases act_standing ha with hsame | ⟨q, rfl⟩ | ⟨h, -, rfl⟩ | ⟨h, -, rfl⟩ | ⟨h, g, ht, hne, -, rfl⟩ | ⟨g, hg, rfl⟩
  · exact tokenLaw_congr hsame.token (fun g hg => by rw [attached_congr hsame.state g, hg]) hs
  · exact nofun
  · refine tokenLaw_congr (s := s) rfl (fun g hg => ?_) hs
    rw [State.portJoined, recompute_attached, attached_iff, State.setPort_port]
    split
    · rfl
    · exact attached_iff.1 hg
  · intro g hg
    rw [portLeft_token] at hg
    split at hg
    · cases hg
    next hne =>
      rw [portLeft_attached, hs g hg]
      simpa using fun hgh : g = h => hne (hgh ▸ hg)
  · intro k hk
    rw [ejectPort_token, ht] at hk
    obtain rfl := Option.some.inj hk
    rw [ejectPort_attached, hs h ht]
    simpa using hne.symm
  · intro k hk
    obtain rfl := Option.some.inj hk
    exact (recompute_attached _ g).trans hg

/-! ## The DETACHED ports -/

/-- From s to t no port becomes DETACHED, an empty stack of a DETACHED port stays empty, and no timer becomes one of
a DETACHED port. -/
def SpareDetached (s t : State) : Prop :=
  ∀ g : Port, t.attached g = false → s.attached g = false
    ∧ ((s.port g).stack = [] → (t.port g).stack = [])
    ∧ ∀ n, (t.timer n).ownedBy g = true → (s.timer n).ownedBy g = true

theorem SpareDetached.refl (s : State) : SpareDetached s s := fun _ h => ⟨h, id, fun _ => id⟩

theorem SpareDetached.trans {s t u : State} (h1 : SpareDetached s t) (h2 : SpareDetached t u) :
    SpareDetached s u := fun g hg => by
  obtain ⟨ht, hstack2, htimers2⟩ := h2 g hg
  obtain ⟨hs, hstack1, htimers1⟩ := h1 g ht
  exact ⟨hs, hstack2 ∘ hstack1, fun n => htimers1 n ∘ htimers2 n⟩

/-- Where a DETACHED port is spared, the law stands. -/
theorem SpareDetached.law {s t : State} (h : SpareDetached s t) (hs : s.DetachedLaw) : t.DetachedLaw := fun g hg => by
  obtain ⟨hdetached, hstack, htimers⟩ := h g hg
  obtain ⟨hempty, howns⟩ := hs g hdetached
  exact ⟨hstack hempty, fun n => Bool.eq_false_iff.2 fun hn => Bool.eq_false_iff.1 (howns n) (htimers n hn)⟩

/-- Where the states of the ports, the stacks and the timers stay, every port is spared. -/
theorem spareDetached_of_fields {s t : State} (hports : t.ports = s.ports) (htimers : t.timers = s.timers) :
    SpareDetached s t := fun g hg => by
  have hport : t.port g = s.port g := by rw [State.port, State.port, hports]
  rw [State.attached, hport] at hg
  exact ⟨hg, fun hstack => by rw [hport, hstack], fun n hn => by rwa [State.timer, htimers] at hn⟩

/-- A port that comes to be ATTACHED, keeps its empty stack, or has an entry, is spared. -/
theorem spareDetached_setPort {s : State} {h : Port} {p : HostPort}
    (hp : p.state = .detached → (s.port h).state = .detached ∧ ((s.port h).stack = [] → p.stack = [])) :
    SpareDetached s (s.setPort h p) := fun g hg => by
  rw [State.attached, State.setPort_port] at hg
  rw [State.setPort_port]
  split at hg
  next hgh =>
    subst hgh
    obtain ⟨hstate, hstack⟩ := hp (by cases hp : p.state <;> simp_all)
    exact ⟨by simp [State.attached, hstate], fun hempty => by rw [if_pos rfl, hstack hempty], fun _ => id⟩
  next hgh => exact ⟨hg, fun hempty => by rw [if_neg hgh, hempty], fun _ => id⟩

/-- A host with an entry is none of a DETACHED port, whatever its stack becomes. -/
theorem spareDetached_setStack {s : State} {h : Port} (hentry : (s.port h).stack ≠ []) (es : List Entry) :
    SpareDetached s (s.setStack h es) :=
  spareDetached_setPort fun hd => ⟨hd, fun hempty => absurd hempty hentry⟩

/-- A claim changes an ATTACHED port. -/
theorem spareDetached_claimTicket {s : State} {h : Port} (ha : s.attached h = true) (i : SlotId) (u : Ticket) :
    SpareDetached s (s.claimTicket h i u) :=
  spareDetached_setPort (s := s.setTicket i _) fun hd => by
    have hattached : (s.port h).state = .attached := attached_iff.1 ha
    have hdetached : (s.port h).state = .detached := hd
    rw [hattached] at hdetached
    cases hdetached

theorem spareDetached_recompute (s : State) : SpareDetached s s.recompute := fun g hg =>
  ⟨(recompute_attached s g).symm.trans hg, fun hstack => by rw [recompute_port, hstack], fun _ => id⟩

/-- A timer written with a record that no DETACHED port owns spares the DETACHED ports. -/
theorem spareDetached_setTimer {s : State} {n : TimerId} {x : Timer}
    (hx : ∀ g, s.attached g = false → x.ownedBy g = true → (s.timer n).ownedBy g = true) :
    SpareDetached s (s.setTimer n x) := fun g hg => by
  refine ⟨hg, id, fun m hm => ?_⟩
  rw [State.setTimer_timer] at hm
  split at hm
  next hmn => exact hmn ▸ hx g hg hm
  next => exact hm

/-- No step makes a host the owner of a timer (R111). -/
theorem stepBank_ownedBy (depth : Nat) (n : TimerId) (ts : Vector Timer 8) (m : TimerId) (g : Port)
    (hm : (look (stepBank depth n ts).1 m).ownedBy g = true) : (look ts m).ownedBy g = true := by
  have hexpiry (t : Timer) (h : t.afterExpiry.ownedBy g = true) : t.ownedBy g = true := by
    unfold Timer.afterExpiry at h
    split at h
    · exact h
    · exact h
    · simp [Timer.ownedBy] at h
  have hwrite {us : Vector Timer 8} {k : TimerId} {t : Timer} (ht : t.ownedBy g = true → (look us k).ownedBy g = true)
      (hus : (look us m).ownedBy g = true → (look ts m).ownedBy g = true)
      (h : (look (place us k t) m).ownedBy g = true) : (look ts m).ownedBy g = true := by
    rw [look_place] at h
    split at h
    next hmk => exact hus (hmk ▸ ht h)
    next => exact hus h
  exact stepBank_keeps (Q := fun us => (look us m).ownedBy g = true → (look ts m).ownedBy g = true)
    (fun _ _ => hwrite id) (fun _ _ => hwrite (hexpiry _)) depth n ts id hm

theorem spareDetached_events (a : State) : KeptByEvents (SpareDetached a) where
  move s hs := hs.trans fun g hg => by
    rw [State.attached, moveTimebase_port] at hg
    refine ⟨hg, fun hstack => by rw [moveTimebase_port, hstack], fun n hn => ?_⟩
    rwa [moveTimebase_timer] at hn
  sample s n level hs := hs.trans (spareDetached_of_fields (by rw [sampleLine_frame]) (by rw [sampleLine_frame]))
  step s n chainOrder _ hs := hs.trans fun g hg => by
    have hports : (s.stepTimer n chainOrder).port g = s.port g := by rw [stepTimer_frame]; rfl
    rw [State.attached, hports] at hg
    refine ⟨hg, fun hstack => by rw [hports, hstack], fun m hm => ?_⟩
    rw [State.timer, stepTimer_timers] at hm
    split at hm
    · exact stepBank_ownedBy 8 n s.timers m g hm
    · rw [look_place] at hm
      split at hm
      next hmn => exact hmn ▸ hm
      next => exact hm
  lapse s h k e he _ hs := hs.trans fun g hg => by
    rw [State.attached, lapseEntry_port he] at hg
    rw [lapseEntry_port he]
    refine ⟨?_, fun hstack => ?_, fun n hn => ?_⟩
    · split at hg
      next hgh => exact hgh ▸ hg
      next => exact hg
    · split
      next hgh => rw [hgh] at hstack; simp [hstack]
      next => exact hstack
    · rwa [lapseEntry_frame] at hn
  collect s i hs := by
    have hframe := collect_onlyPoolFaults s i
    exact hs.trans (spareDetached_of_fields hframe.ports hframe.timers)
  endReservation s i hs := by
    have hframe := endReservation_onlyPool s i
    exact hs.trans (spareDetached_of_fields hframe.ports hframe.timers)

/-- A departure leaves its port without entries and running timers, and spares the others (R91, R117). -/
theorem depart_detachedLaw {s : State} (h : Port) (hs : s.DetachedLaw) : (s.depart h).DetachedLaw := fun g hg => by
  rw [depart_port]
  by_cases hgh : g = h
  · subst hgh
    refine ⟨by rw [if_pos rfl], fun n => ?_⟩
    rw [depart_timer]
    split
    · rfl
    next hn => exact Bool.eq_false_iff.2 hn
  · rw [depart_attached] at hg
    obtain ⟨hstack, htimers⟩ := hs g (by simpa [hgh] using hg)
    refine ⟨by rw [if_neg hgh, hstack], fun n => ?_⟩
    rw [depart_timer]
    split
    · rfl
    · exact htimers n

/-- The law of the DETACHED ports reads the states and stacks of the ports and the timers. -/
theorem detachedLaw_congr {s t : State} (hstate : ∀ g, (t.port g).state = (s.port g).state)
    (hstack : ∀ g, (t.port g).stack = (s.port g).stack) (htimers : t.timers = s.timers) (hs : s.DetachedLaw) :
    t.DetachedLaw := fun g hg => by
  rw [attached_congr hstate] at hg
  rw [hstack]
  refine ⟨(hs g hg).1, fun n => ?_⟩
  rw [State.timer, htimers]
  exact (hs g hg).2 n

theorem reset_detachedLaw (q : List Instr) : State.DetachedLaw { State.reset with pending := q } := fun h _ =>
  ⟨by rw [reset_port]; rfl, fun n => by
    have htimer : State.timer { State.reset with pending := q } n = Timer.reset := look_replicate _ n
    rw [htimer]
    rfl⟩

/-- Every act keeps the DETACHED ports without entries and running timers. -/
theorem act_detachedLaw {s t : State} (ha : Act s t) (hs : s.DetachedLaw) : t.DetachedLaw := by
  cases ha with
  | reset => exact reset_detachedLaw _
  | link | deliver =>
    refine (spareDetached_setPort ?_).law hs
    exact fun hd => ⟨hd, id⟩
  | advance pins order held =>
    exact (((spareDetached_events s).advanced s pins order held (.refl s)).trans (spareDetached_recompute _)).law hs
  | expire chainOrder e =>
    exact ((spareDetached_events s).expiryRow (fun _ ht => ht.trans (spareDetached_recompute _)) s chainOrder e
      (.refl s)).law hs
  | command hc =>
    cases hc with
    | leave =>
      exact detachedLaw_congr (fun g => by rw [portLeft_port]) (fun g => by rw [portLeft_port]) (portLeft_timers s _)
        (depart_detachedLaw _ hs)
    | eject =>
      exact detachedLaw_congr (fun g => by rw [ejectPort_port]) (fun g => by rw [ejectPort_port])
        (ejectPort_timers s _) (depart_detachedLaw _ hs)
    | answer =>
      refine (spareDetached_setPort ?_).law hs
      exact fun hd => ⟨hd, id⟩
    | join =>
      refine ((spareDetached_setPort ?_).trans (spareDetached_recompute _)).law hs
      exact fun hd => by cases hd
    | threshold =>
      refine ((spareDetached_setPort ?_).trans (spareDetached_recompute _)).law hs
      exact fun hd => ⟨hd, id⟩
    | @token g => exact (spareDetached_recompute { s with token := some g }).law hs
    | @configure src c r =>
      refine ((spareDetached_of_fields (configured_ports s src r) ?_).trans (spareDetached_recompute _)).law hs
      rw [(afterSourceSet_onlyPool _ s _).timers, State.setConfig]
      split <;> rfl
    | flush =>
      refine detachedLaw_congr (s := s.emptied) (fun g => by rw [flush_port]) (fun g => by rw [flush_port]) ?_ ?_
      · rw [flush_eq, recompute_timers, (flush_onlyPool s).timers]
      · intro g hg
        rw [State.attached, emptied_port] at hg
        have hdetached : s.attached g = false := by rw [State.attached, hg]
        have htimer (n : TimerId) : s.emptied.timer n = s.timer n := by rw [State.timer, State.timer, State.emptied]
        refine ⟨by rw [emptied_port], fun n => ?_⟩
        rw [htimer]
        exact (hs g hdetached).2 n
    | clearOverflow => exact hs
    | @readFault r rest =>
      refine detachedLaw_congr (s := s) (fun g => by rw [readFault_port]; split <;> rfl)
        (fun g => by rw [readFault_port]; split <;> rfl) ?_ hs
      unfold State.readFault
      dsimp only
      split
      · exact (withdraw_onlyPool _ faultSource).timers
      · rfl
    | trigger | post =>
      refine ((spareDetached_of_fields ?_ ?_).trans (spareDetached_recompute _)).law hs
      · exact (occurrence_onlyPool s _ _).ports
      · exact (occurrence_onlyPool s _ _).timers
    | @claim h i u ho =>
      exact ((spareDetached_claimTicket (offer_attached ho).2.1 i u).trans (spareDetached_recompute _)).law hs
    | @popLapsed h e rest hstack =>
      exact ((spareDetached_setStack (by simp [hstack]) rest).trans (spareDetached_recompute _)).law hs
    | @retire h e rest hstack =>
      have hframe := retireTicket_onlyPool (s.setStack h rest) h e.handle
      exact (((spareDetached_setStack (by simp [hstack]) rest).trans
        (spareDetached_of_fields hframe.ports hframe.timers)).trans (spareDetached_recompute _)).law hs
    | extend _ _ hstack => exact (spareDetached_setStack (by simp [hstack]) _).law hs
    | setUpTimer hr hx =>
      refine (spareDetached_setTimer fun g _ hg => ?_).law hs
      rw [setUp_ownedBy hx] at hg
      exact hg
    | startTimer ha =>
      refine (spareDetached_setTimer fun g hd hg => ?_).law hs
      rw [Timer.ownedBy, Bool.true_and, beq_iff_eq] at hg
      obtain rfl := Option.some.inj hg
      rw [ha] at hd
      cases hd
    | stopTimer => exact (spareDetached_setTimer fun g _ hg => by simp [Timer.ownedBy, Timer.stopped] at hg).law hs
    | loadTimer =>
      refine (spareDetached_setTimer ?_).law hs
      exact fun g _ hg => hg

/-- Settles O58: none of the three laws looks at the queue, and every act keeps each of them. -/
theorem stepKeepsHostLaws : Obligations.StepKeepsHostLaws := fun _ _ hstack htoken hdetached hstep =>
  ⟨step_keeps (P := State.StackLaw) (fun _ _ hs => hs) (fun _ _ => act_stackLaw) hstack hstep,
    step_keeps (P := State.TokenLaw) (fun _ _ hs => hs) (fun _ _ => act_tokenLaw) htoken hstep,
    step_keeps (P := State.DetachedLaw) (fun _ _ hs => hs) (fun _ _ => act_detachedLaw) hdetached hstep⟩

end Sys2Proof.Machine
end

section
/-! SUPPORT. A property of the pool that the single changes of the Ticket Pool keep is kept by every operation that is
made of them: the freeing, the re-arm, the return, the lapse, the release and the events of an advance. -/

namespace Sys2Proof.Machine

/-- A property that is kept by the single changes of the pool, each under the conditions that its rule sets, and that
reads beside the pool only the states of the ports, the source table, and whether the fault queue is empty. -/
structure KeptByPool (P : State → Prop) : Prop where
  congr (s : State) {t : State} : t.pool = s.pool → (∀ g, t.attached g = s.attached g) → t.sources = s.sources →
    t.faultLevel = s.faultLevel → (t.faults.records = [] → s.faults.records = []) → P s → P t
  occurrence {s : State} {src : SourceId} (payload : BitVec 16) :
    (SourceId.posted src = true → s.liveCount src < Config.postLimit) →
    (src = faultSource → s.faults.records ≠ []) → P s → P (s.occurrence src payload)
  free (s : State) (i : SlotId) : P s → P (s.freeTicket i)
  clear (s : State) (src : SourceId) : P s → P (s.setDeferral src none)
  wait {s : State} {i : SlotId} {u : Ticket} {g : Port} : s.ticketAt i = some u → u.standing = .held g →
    s.mergeTarget u.source = none → s.conditionGone u.source = false → P s →
    P ((s.setTicket i { u with
      standing := .waiting
      count := ((s.deferralOf u.source).map fun d => saturate (u.count + d.count)).getD u.count }).setDeferral
        u.source none)
  merge {s : State} {r w : SlotId} {u : Ticket} {g : Port} : s.ticketAt r = some u → u.standing = .held g →
    s.mergeTarget u.source = some w → P s → P (s.mergeInto r w)
  narrow {s : State} {i : SlotId} {u : Ticket} {o c : HostSet} {x : Option Time} (kept : HostSet)
    (expiry : Option Time) : s.ticketAt i = some u → u.standing = .spread o c x → o &&& kept ≠ 0 → P s →
    P (s.setTicket i { u with standing := .spread (o &&& kept) (c &&& kept) expiry })
  lapse {s : State} {i : SlotId} {u : Ticket} {g : Port} : s.ticketAt i = some u → u.standing = .held g →
    u.lapses + 1 < u.retryLimit.val → P s → P (s.setTicket i { u with lapses := u.lapses + 1 })
  unreserve {s : State} {i : SlotId} {u : Ticket} : s.ticketAt i = some u → P s →
    P (s.setTicket i { u with reservation := none })
  unreserveAll (s : State) (h : Port) : P s → P (s.endReservationsOf h)

/-- No line source is a posted source, a timer source or source 48. -/
theorem lineSource_lt (n : LineId) : (lineSource n).val < 40 := by
  unfold lineSource
  dsimp only
  omega

theorem timerSource_lt (n : TimerId) : (timerSource n).val < 40 := by
  unfold timerSource
  dsimp only
  omega

theorem ne_faultSource_of_lt {src : SourceId} (h : src.val < 40) : src ≠ faultSource := by
  rintro rfl
  exact absurd h (by decide)

/-- A source whose line is active is a line source. -/
theorem lt_of_lineActive {s : State} {src : SourceId} (h : s.lineActive src = true) : src.val < 32 := by
  by_contra hge
  rw [lineActive_of_ge (not_lt.1 hge)] at h
  cases h

/-- The fault queue is not empty after an append (R127). -/
theorem appended_ne_nil (q : FaultQueue) (r : FaultRecord) : (q.appended r).records ≠ [] := by
  unfold FaultQueue.appended
  split
  next => simp
  next hfull =>
    intro hnil
    have hnone : q.records = [] := hnil
    simp [hnone, Config.faultDepth] at hfull

/-- Writing the deferral that stands changes nothing. -/
theorem setDeferral_of_eq {s : State} {src : SourceId} {d : Option Deferral} (h : s.deferralOf src = d) :
    s.setDeferral src d = s := by
  subst h
  refine State.ext_fields rfl rfl rfl rfl ?_ rfl rfl rfl rfl rfl
  rw [State.setDeferral_pool, State.deferralOf, place_look]

/-- An append is an occurrence of source 48 with the record in the queue (R127). -/
theorem appendFault_eq (s : State) (r : FaultRecord) :
    s.appendFault r = State.occurrence { s with faults := s.faults.appended r } faultSource := rfl

/-- The ticket a handle names stands in the slot of the handle. -/
theorem ticketAt_of_named {s : State} {hd : Handle} {u : Ticket} (hn : s.named hd = some u) :
    s.ticketAt hd.slot = some u ∧ (s.slotAt hd.slot).generation = hd.generation := by
  unfold State.named at hn
  split at hn
  next hg => exact ⟨hn, hg⟩
  next => cases hn

/-- A property that one function of the state keeps is kept by a run of it along a list. -/
theorem foldl_keeps {P : State → Prop} {α : Type} {f : State → α → State} (hf : ∀ s a, P s → P (f s a))
    (l : List α) (s : State)
    (hs : P s) : P (l.foldl f s) := by
  induction l generalizing s with
  | nil => exact hs
  | cons a l ih => exact ih _ (hf s a hs)

section
variable {P : State → Prop} (hP : KeptByPool P)
include hP

/-- An occurrence of a source below the posted ones has no condition. -/
theorem KeptByPool.occurrence_of_lt {s : State} {src : SourceId} (h : src.val < 40) (hs : P s) :
    P (s.occurrence src) :=
  hP.occurrence 0 (fun hp => by rw [posted_of_lt h] at hp; cases hp) (fun hf => absurd hf (ne_faultSource_of_lt h)) hs

/-- An occurrence of source 48 with a record in the queue. -/
theorem KeptByPool.occurrence_of_fault {s : State} (h : s.faults.records ≠ []) (hs : P s) :
    P (s.occurrence faultSource) :=
  hP.occurrence 0 (fun hp => absurd hp (by decide)) (fun _ => h) hs

/-! ## Freeings and re-arms -/

theorem KeptByPool.withdraw (s : State) (src : SourceId) (hs : P s) : P (s.withdraw src) := by
  unfold State.withdraw
  refine hP.clear _ src ?_
  split
  · exact hP.free s _ hs
  · exact hs

theorem KeptByPool.disable (s : State) (src : SourceId) (hs : P s) : P (s.disable src) :=
  hP.clear _ src (foldl_keeps hP.free _ s hs)

theorem KeptByPool.rearm (s : State) (src : SourceId) (hs : P s) : P (s.rearm src) := by
  unfold State.rearm
  split
  next hcond =>
    simp only [Bool.and_eq_true, Bool.or_eq_true, beq_iff_eq, Bool.not_eq_true', List.isEmpty_eq_false_iff] at hcond
    rcases hcond.1 with hline | ⟨rfl, hrecords⟩
    · exact hP.occurrence_of_lt ((lt_of_lineActive hline).trans (by decide)) hs
    · exact hP.occurrence_of_fault hrecords hs
  next => exact hs

theorem KeptByPool.settle (s : State) (i : SlotId) (src : SourceId) (hs : P s) : P (s.settle i src) :=
  hP.rearm _ src (hP.free s i hs)

theorem KeptByPool.appendFault (s : State) (r : FaultRecord) (hs : P s) : P (s.appendFault r) := by
  rw [appendFault_eq]
  have hne := appended_ne_nil s.faults r
  exact hP.occurrence_of_fault hne (hP.congr s rfl (fun _ => rfl) rfl rfl (fun h => absurd h hne) hs)

/-! ## Rounds and returns -/

theorem KeptByPool.leaveRound (s : State) (h : Port) (i : SlotId) (hs : P s) : P (s.leaveRound h i) := by
  rcases leaveRound_cases s h i with ⟨-, heq⟩ | ⟨u, o, c, x, hu, hround, ⟨-, heq⟩ | ⟨hne, heq⟩⟩ <;> rw [heq]
  · exact hs
  · exact hP.settle s i u.source hs
  · exact hP.narrow (~~~ HostSet.only h) x hu hround hne hs

/-- The return of a ticket taken back from its holder (R83). -/
theorem KeptByPool.returnTicket {s : State} {i : SlotId} {u : Ticket} {g : Port} (hu : s.ticketAt i = some u)
    (hheld : u.standing = .held g) (hs : P s) : P (s.returnTicket i) := by
  rcases returnTicket_cases hu with ⟨-, heq⟩ | ⟨hgone, ⟨w, hw, heq⟩ | ⟨hw, ⟨d, hd, heq⟩ | ⟨hd, heq⟩⟩⟩ <;> rw [heq]
  · exact hP.free s i hs
  · exact hP.merge hu hheld hw hs
  · have hwait := hP.wait hu hheld hw hgone hs
    rwa [hd] at hwait
  · have hwait := hP.wait hu hheld hw hgone hs
    rwa [hd, setDeferral_of_eq (s := s.setTicket i _) hd] at hwait

/-! ## Lapses -/

theorem KeptByPool.lapseSingle {s : State} {i : SlotId} {u : Ticket} {g : Port} (hu : s.ticketAt i = some u)
    (hheld : u.standing = .held g) (hs : P s) : P (s.lapseSingle i u) := by
  by_cases hlimit : u.retryLimit.val ≤ u.lapses + 1
  · rw [lapseSingle_of_limit hlimit]
    exact hP.appendFault _ _ (hP.free s i hs)
  · rw [lapseSingle_of_below (not_le.1 hlimit)]
    have hticket : (s.setTicket i { u with lapses := u.lapses + 1 }).ticketAt i =
        some { u with lapses := u.lapses + 1 } := by rw [State.setTicket_ticketAt, if_pos rfl]
    exact hP.returnTicket hticket hheld (hP.lapse hu hheld (not_le.1 hlimit) hs)

theorem KeptByPool.lapseTicket (s : State) (h : Port) (hd : Handle) (hs : P s) : P (s.lapseTicket h hd) := by
  rcases lapseTicket_cases s h hd with ⟨-, heq⟩ | ⟨u, g, hn, hheld, heq⟩ | ⟨u, o, c, x, -, -, heq⟩ <;> rw [heq]
  · exact hs
  · exact hP.lapseSingle (ticketAt_of_named hn).1 hheld hs
  · exact hP.appendFault _ _ (hP.leaveRound s h hd.slot hs)

theorem KeptByPool.setStack (s : State) (h : Port) (es : List Entry) (hs : P s) : P (s.setStack h es) :=
  hP.congr s rfl (setPort_attached rfl) rfl rfl id hs

theorem KeptByPool.lapseEntry {s : State} {h : Port} {k : Fin 4} {e : Entry} (he : s.entryAt h k = some e)
    (hs : P s) : P (s.lapseEntry h k) := by
  rw [lapseEntry_of_entry he]
  exact hP.lapseTicket _ h e.handle (hP.setStack s h _ hs)

theorem KeptByPool.collect (s : State) (i : SlotId) (hs : P s) : P (s.collect i) := by
  unfold State.collect
  split
  next => exact hs
  next u hu =>
    split
    next owed claimed x hround =>
      refine foldl_keeps (fun t h => hP.appendFault t _) _ _ ?_
      split
      next => exact hP.settle s i u.source hs
      next hne =>
        have hkept := hP.narrow claimed none hu hround hne hs
        rwa [BitVec.and_self] at hkept
    next => exact hs

/-! ## Events -/

theorem KeptByPool.endReservation (s : State) (i : SlotId) (hs : P s) : P (s.endReservation i) := by
  unfold State.endReservation
  split
  next => exact hs
  next u hu => exact hP.unreserve hu hs

theorem KeptByPool.recognisedChange (s : State) (n : LineId) (level : Bool) (hs : P s) :
    P (s.recognisedChange n level) := by
  unfold State.recognisedChange
  dsimp only
  split
  case h_2 | h_3 => exact hs
  case h_7 | h_8 => exact hP.withdraw s _ hs
  all_goals exact hP.occurrence_of_lt (lineSource_lt n) hs

theorem KeptByPool.setLine (s : State) (n : LineId) (l : Line) (hs : P s) : P (s.setLine n l) :=
  hP.congr s rfl (fun _ => rfl) rfl rfl id hs

theorem KeptByPool.sampleLine (s : State) (n : LineId) (level : Bool) (hs : P s) : P (s.sampleLine n level) := by
  unfold State.sampleLine
  dsimp only
  split_ifs
  · exact hP.setLine s n _ hs
  · exact hP.setLine s n _ hs
  · exact hP.recognisedChange _ n level (hP.setLine s n _ hs)
  · exact hP.setLine s n _ hs

theorem KeptByPool.stepTimer (s : State) (n : TimerId) (chainOrder : List TimerId) (hs : P s) :
    P (s.stepTimer n chainOrder) := by
  unfold State.stepTimer
  split
  · refine foldl_keeps (fun t m => hP.occurrence_of_lt (timerSource_lt m)) _ _ ?_
    exact hP.congr s rfl (fun _ => rfl) rfl rfl id hs
  · exact hP.congr s rfl (fun _ => rfl) rfl rfl id hs

theorem KeptByPool.moveTimebase (s : State) (hs : P s) : P s.moveTimebase :=
  hP.congr s rfl (attached_congr fun g => by rw [moveTimebase_port]) rfl rfl id hs

/-- A property kept by the changes of the pool is kept by the events of an advance. -/
theorem KeptByPool.events : KeptByEvents P where
  move := hP.moveTimebase
  sample := hP.sampleLine
  step s n chainOrder _ := hP.stepTimer s n chainOrder
  lapse _ _ _ _ he _ := hP.lapseEntry he
  collect := hP.collect
  endReservation := hP.endReservation

theorem KeptByPool.recompute (s : State) (hs : P s) : P s.recompute :=
  hP.congr s rfl (recompute_attached s) rfl rfl id hs

/-! ## Retirements and departures -/

theorem KeptByPool.retireTicket (s : State) (h : Port) (hd : Handle) (hs : P s) : P (s.retireTicket h hd) := by
  unfold State.retireTicket
  split
  · exact hs
  · split
    · exact hP.settle s _ _ hs
    · exact hP.leaveRound s h _ hs
    · exact hs

theorem KeptByPool.releaseEntry (s : State) (h : Port) (e : Entry) (hs : P s) : P (s.releaseEntry h e) := by
  unfold State.releaseEntry
  split
  · exact hs
  · split
    · exact hs
    next u hn =>
      split
      next g hheld => exact hP.returnTicket (ticketAt_of_named hn).1 hheld hs
      next => exact hP.leaveRound s h _ hs
      next => exact hs

theorem KeptByPool.releaseStack (s : State) (h : Port) (es : List Entry) (hs : P s) : P (s.releaseStack h es) := by
  induction es generalizing s with
  | nil => exact hP.setStack s h [] hs
  | cons e rest ih => exact ih _ (hP.releaseEntry _ h e (hP.setStack s h rest hs))

theorem KeptByPool.dropUnclaimed (s : State) (h : Port) (hs : P s) : P (s.dropUnclaimed h) :=
  foldl_keeps (fun t i => hP.leaveRound t h i) _ s hs

theorem KeptByPool.release (s : State) (h : Port) (hs : P s) : P (s.release h) := by
  unfold State.release
  dsimp only
  have hdropped := hP.dropUnclaimed _ h (hP.releaseStack s h (s.port h).stack hs)
  split
  · exact hdropped
  · exact hP.appendFault _ _ hdropped

/-! ## Supervision -/

theorem KeptByPool.occurrenceOnSet (s before : State) (src : SourceId) (hs : P s) :
    P (s.occurrenceOnSet before src) := by
  unfold State.occurrenceOnSet
  split
  next hcond =>
    simp only [Bool.or_eq_true, Bool.and_eq_true, State.heldActive, beq_iff_eq, Bool.not_eq_true',
      List.isEmpty_eq_false_iff] at hcond
    rcases hcond with ⟨⟨-, hline⟩, -⟩ | ⟨⟨⟨rfl, -⟩, -⟩, hrecords⟩
    · exact hP.occurrence_of_lt ((lt_of_lineActive hline).trans (by decide)) hs
    · exact hP.occurrence_of_fault hrecords hs
  next => exact hs

theorem KeptByPool.afterSourceSet (s before : State) (src : SourceId) (hs : P s) :
    P (s.afterSourceSet before src) := by
  rw [afterSourceSet_eq]
  have hwithdrawn (t : State) (ht : P t) : P (t.withdrawInactive src) := by
    unfold State.withdrawInactive
    split
    · exact hP.withdraw t src ht
    · exact ht
  have hdisabled (t : State) (ht : P t) : P (t.disableOff src) := by
    unfold State.disableOff
    split
    · exact hP.disable t src ht
    · exact ht
  exact hdisabled _ (hwithdrawn _ (hP.occurrenceOnSet s before src hs))

theorem KeptByPool.flushStep (s : State) (src : SourceId) (hs : P s) : P (s.flushStep src) := by
  unfold State.flushStep
  split
  next hcond =>
    simp only [State.rearmedByFlush, Bool.and_eq_true, Bool.or_eq_true, beq_iff_eq, Bool.not_eq_true',
      List.isEmpty_eq_false_iff] at hcond
    rcases hcond.2 with hline | ⟨rfl, hrecords⟩
    · exact hP.occurrence_of_lt ((lt_of_lineActive hline).trans (by decide)) hs
    · exact hP.occurrence_of_fault hrecords hs
  next => exact hs

theorem KeptByPool.flush (s : State) (hs : P s.emptied) : P s.flush := by
  rw [flush_eq]
  exact hP.recompute _ (foldl_keeps hP.flushStep _ _ hs)

end

end Sys2Proof.Machine
end

section
/-! SUPPORT. The creation order and the room of the pool over a step (R26, R34). -/

namespace Sys2Proof.Machine

/-- The creation order is exact, and the pool is full while a source is deferred (R26, R34). -/
def State.PoolSound (s : State) : Prop := s.OrderLaw ∧ s.NoRoomLaw

/-- With the same slots occupied, the same order and no new deferral, both laws stand. -/
theorem poolSound_congr {s t : State} (hlive : ∀ i, (t.ticketAt i).isSome = (s.ticketAt i).isSome)
    (horder : t.pool.order = s.pool.order)
    (hdeferral : ∀ src, (t.deferralOf src).isSome = true → (s.deferralOf src).isSome = true)
    (hs : s.PoolSound) : t.PoolSound := by
  obtain ⟨⟨hnodup, hmem⟩, hroom⟩ := hs
  refine ⟨⟨horder ▸ hnodup, fun i => by rw [horder, hlive]; exact hmem i⟩, fun ⟨src, hsrc⟩ i => ?_⟩
  rw [hlive]
  exact hroom ⟨src, hdeferral src hsrc⟩ i

/-- A ticket written in the place of a ticket leaves both laws. -/
theorem setTicket_poolSound {s : State} {i : SlotId} (u : Ticket) (hi : (s.ticketAt i).isSome = true)
    (hs : s.PoolSound) : (s.setTicket i u).PoolSound :=
  poolSound_congr (s := s) (fun j => by rw [State.setTicket_ticketAt]; split <;> simp_all) rfl (fun _ => id) hs

theorem setDeferral_poolSound {s : State} (src : SourceId) {d : Option Deferral}
    (hd : d.isSome = true → ∀ i, (s.ticketAt i).isSome = true) (hs : s.PoolSound) :
    (s.setDeferral src d).PoolSound := by
  refine ⟨hs.1, fun ⟨other, hother⟩ => ?_⟩
  rw [State.setDeferral_deferralOf] at hother
  split at hother
  · exact hd hother
  · exact hs.2 ⟨other, hother⟩

/-- A creation in a free slot, with nothing deferred, keeps both laws. -/
theorem createTicket_poolSound {s : State} {i : SlotId} (src : SourceId) (c : Nat) (st : Time)
    (p : Option (BitVec 16)) (hi : s.ticketAt i = none) (hs : s.PoolSound) :
    (s.createTicket i src c st p).PoolSound := by
  obtain ⟨⟨hnodup, hmem⟩, hroom⟩ := hs
  have hnew : i ∉ s.pool.order := fun h => by have := (hmem i).1 h; rw [hi] at this; cases this
  refine ⟨⟨?_, fun j => ?_⟩, fun hdeferred => ?_⟩
  · rw [createTicket_order]
    exact List.nodup_append.2 ⟨hnodup, List.nodup_singleton i, by rintro a ha b hb rfl; simp_all⟩
  · rw [createTicket_order, createTicket_ticketAt, List.mem_append, hmem j, List.mem_singleton]
    by_cases hj : j = i <;> simp [hj]
  · have := hroom hdeferred i
    rw [hi] at this
    cases this

/-- A slot cleared with nothing deferred keeps both laws. -/
theorem clearSlot_orderLaw {s : State} (i : SlotId) (hs : s.OrderLaw) : (s.clearSlot i).OrderLaw := by
  obtain ⟨hnodup, hmem⟩ := hs
  refine ⟨hnodup.erase i, fun j => ?_⟩
  rw [clearSlot_order, hnodup.mem_erase_iff, State.ticketAt, clearSlot_slotAt, hmem j]
  by_cases hj : j = i <;> simp [hj, State.ticketAt]

theorem freeTicket_poolSound (s : State) (i : SlotId) (hs : s.PoolSound) : (s.freeTicket i).PoolSound := by
  have hclear := clearSlot_orderLaw i hs.1
  rcases freeTicket_cases s i with ⟨-, heq⟩ | ⟨-, hnone, heq⟩ | ⟨src, d, -, hfirst, -, heq⟩ <;> rw [heq]
  · exact hs
  · refine ⟨hclear, fun ⟨src, hsrc⟩ => ?_⟩
    have hdeferral : (s.clearSlot i).deferralOf src = none := hnone src
    rw [hdeferral] at hsrc
    cases hsrc
  · have hfull := hs.2 ⟨src, hfirst.1⟩
    have hfree : (s.clearSlot i).ticketAt i = none := by rw [State.ticketAt, clearSlot_slotAt, if_pos rfl]
    have hnew : i ∉ (s.clearSlot i).pool.order := fun h => by
      have := (hclear.2 i).1 h; rw [hfree] at this; cases this
    refine ⟨⟨?_, fun j => ?_⟩, fun _ j => ?_⟩
    · exact List.nodup_append.2 ⟨hclear.1, List.nodup_singleton i, by rintro a ha b hb rfl; simp_all⟩
    · change j ∈ (s.clearSlot i).pool.order ++ [i] ↔ (((s.clearSlot i).createTicket i src _ _ _).ticketAt j).isSome = true
      rw [createTicket_ticketAt, List.mem_append, hclear.2 j, List.mem_singleton]
      by_cases hj : j = i <;> simp [hj]
    · change (((s.clearSlot i).createTicket i src _ _ _).ticketAt j).isSome = true
      rw [createTicket_ticketAt]
      split
      · rfl
      next hj =>
        rw [State.ticketAt, clearSlot_slotAt, if_neg hj]
        exact hfull j

theorem occurrence_poolSound {s : State} (src : SourceId) (p : BitVec 16) (hs : s.PoolSound) :
    (s.occurrence src p).PoolSound := by
  have hcoalesce (i : SlotId) : (s.coalesce i).PoolSound := by
    unfold State.coalesce
    split
    next => exact hs
    next u hu => exact setTicket_poolSound _ (by rw [hu]; rfl) hs
  rcases occurrence_cases s src p with ⟨-, heq⟩ | ⟨-, -, ⟨i, hi, heq⟩ | ⟨-, heq⟩⟩
    | ⟨-, -, ⟨i, -, heq⟩ | ⟨-, ⟨d, hd, heq⟩ | ⟨-, ⟨i, hi, heq⟩ | ⟨hfull, heq⟩⟩⟩⟩ <;> rw [heq]
  · exact hs
  · exact createTicket_poolSound src _ _ _ (lowestFree_eq_some.1 hi).1 hs
  · exact hs
  · exact hcoalesce i
  · exact setDeferral_poolSound src (fun _ => hs.2 ⟨src, by rw [hd]; rfl⟩) hs
  · exact createTicket_poolSound src _ _ _ (lowestFree_eq_some.1 hi).1 hs
  · exact setDeferral_poolSound src (fun _ => lowestFree_eq_none.1 hfull) hs

/-- A merge puts the survivor in the older place: its order is a rearrangement (R27). -/
theorem mergedOrder_perm {order : List SlotId} {r w : SlotId} {rOlder : Bool} (hnodup : order.Nodup)
    (hr : r ∈ order) (hw : w ∈ order) (hne : rOlder = true → r ≠ w) :
    (mergedOrder order r w rOlder).Perm order := by
  have hinsert (l : List SlotId) (hl : l.Nodup) (hrl : r ∈ l) :
      (l.flatMap fun j => if j = r then [w, r] else [j]).Perm (w :: l) := by
    induction l with
    | nil => cases hrl
    | cons a l ih =>
      rw [List.flatMap_cons]
      by_cases ha : a = r
      · subst ha
        have hrest : (l.flatMap fun j => if j = a then [w, a] else [j]) = l := by
          have hid := List.flatMap_congr (f := fun j => if j = a then [w, a] else [j]) (g := fun j => [j]) (l := l)
            fun j hj => if_neg fun h : j = a => (List.nodup_cons.1 hl).1 (h ▸ hj)
          rw [hid, List.flatMap_singleton']
        rw [if_pos rfl, hrest]
        exact .refl _
      · rw [if_neg ha]
        have hmem := (List.mem_cons.1 hrl).resolve_left (Ne.symm ha)
        exact ((ih (List.nodup_cons.1 hl).2 hmem).cons a).trans (.swap w a l)
  cases rOlder with
  | false => exact .refl _
  | true =>
    have hrw : r ∈ order.erase w := (hnodup.mem_erase_iff).2 ⟨hne rfl, hr⟩
    exact (hinsert _ (hnodup.erase w) hrw).trans (List.perm_cons_erase hw).symm

/-- A ticket does not stand before itself. -/
theorem ne_of_olderThan {s : State} {r w : SlotId} (h : s.olderThan r w = true) : r ≠ w := by
  rintro rfl
  exact absurd (of_decide_eq_true h) (lt_irrefl _)

/-- The part of a merge before the freeing of the returned ticket. -/
theorem mergeInto_eq {s : State} {r w : SlotId} {u v : Ticket} (hu : s.ticketAt r = some u)
    (hv : s.ticketAt w = some v) :
    s.mergeInto r w =
      ((s.setTicket w (mergedTicket u v (s.olderThan r w))).setOrder
        (mergedOrder s.pool.order r w (s.olderThan r w))).freeTicket r := by
  rw [State.mergeInto, hu, hv]

theorem mergeInto_poolSound {s : State} (r w : SlotId) (hs : s.PoolSound) : (s.mergeInto r w).PoolSound := by
  cases hu : s.ticketAt r with
  | none => rw [State.mergeInto, hu]; exact hs
  | some u =>
    cases hv : s.ticketAt w with
    | none => rw [State.mergeInto, hu, hv]; exact hs
    | some v =>
      rw [mergeInto_eq hu hv]
      obtain ⟨⟨hnodup, hmem⟩, hroom⟩ := setTicket_poolSound (mergedTicket u v (s.olderThan r w))
        (by rw [hv]; rfl) hs
      have hlive (i : SlotId) (hi : (s.ticketAt i).isSome = true) : i ∈ s.pool.order := (hs.1.2 i).2 hi
      have hperm := mergedOrder_perm (rOlder := s.olderThan r w) hs.1.1 (hlive r (by rw [hu]; rfl))
        (hlive w (by rw [hv]; rfl)) ne_of_olderThan
      exact freeTicket_poolSound _ r
        ⟨⟨hperm.nodup_iff.2 hnodup, fun i => hperm.mem_iff.trans (hmem i)⟩, hroom⟩

theorem endReservationsOf_slotAt (s : State) (h : Port) (i : SlotId) :
    (s.endReservationsOf h).slotAt i =
      { s.slotAt i with ticket := (s.ticketAt i).map fun u =>
          match u.reservation with
          | some r => if r.host = h then { u with reservation := none } else u
          | none => u } := look_fill _ i

@[simp] theorem endReservationsOf_order (s : State) (h : Port) :
    (s.endReservationsOf h).pool.order = s.pool.order := by
  rw [State.endReservationsOf, State.setPool_pool]

@[simp] theorem endReservationsOf_deferralOf (s : State) (h : Port) (src : SourceId) :
    (s.endReservationsOf h).deferralOf src = s.deferralOf src := by
  rw [State.endReservationsOf, State.deferralOf, State.setPool_pool, State.deferralOf]

/-- Both laws are kept by every change of the pool. -/
theorem poolSound_keptByPool : KeptByPool State.PoolSound where
  congr s t hpool _ _ _ _ hs :=
    poolSound_congr (fun i => by rw [State.ticketAt, State.slotAt, hpool]; rfl) (by rw [hpool])
      (fun src h => by rwa [State.deferralOf, hpool] at h) hs
  occurrence payload _ _ hs := occurrence_poolSound _ payload hs
  free := freeTicket_poolSound
  clear s src hs := setDeferral_poolSound src nofun hs
  wait hu _ _ _ hs := setDeferral_poolSound _ nofun (setTicket_poolSound _ (by rw [hu]; rfl) hs)
  merge _ _ _ hs := mergeInto_poolSound _ _ hs
  narrow _ _ hu _ _ hs := setTicket_poolSound _ (by rw [hu]; rfl) hs
  lapse hu _ _ hs := setTicket_poolSound _ (by rw [hu]; rfl) hs
  unreserve hu hs := setTicket_poolSound _ (by rw [hu]; rfl) hs
  unreserveAll s h hs :=
    poolSound_congr (fun i => by rw [State.ticketAt, endReservationsOf_slotAt, Option.isSome_map])
      (endReservationsOf_order s h) (fun src hsrc => by rwa [endReservationsOf_deferralOf] at hsrc) hs

theorem poolSound_of_pool {s t : State} (h : t.pool = s.pool) (hs : s.PoolSound) : t.PoolSound :=
  poolSound_congr (fun i => by rw [State.ticketAt, State.slotAt, h]; rfl) (by rw [h])
    (fun src hsrc => by rwa [State.deferralOf, h] at hsrc) hs

/-- A pool with no ticket and nothing deferred is sound. -/
theorem poolSound_of_empty {s : State} (hticket : ∀ i, s.ticketAt i = none) (horder : s.pool.order = [])
    (hdeferral : s.NothingDeferred) : s.PoolSound := by
  refine ⟨⟨by simp [horder], fun i => by simp [horder, hticket]⟩, fun ⟨src, hsrc⟩ => ?_⟩
  rw [hdeferral src] at hsrc
  cases hsrc

theorem emptied_poolSound (s : State) : s.emptied.PoolSound :=
  poolSound_of_empty (fun i => by rw [State.ticketAt, emptied_slotAt]) rfl (emptied_deferralOf s)

theorem reset_poolSound (q : List Instr) : State.PoolSound { State.reset with pending := q } :=
  poolSound_of_empty (fun i => congrArg Slot.ticket (look_replicate _ i)) rfl (fun src => look_replicate _ src)

theorem depart_poolSound {s : State} (h : Port) (hs : s.PoolSound) : (s.depart h).PoolSound := by
  have hreleased := poolSound_keptByPool.release _ h (poolSound_keptByPool.unreserveAll s h hs)
  refine poolSound_keptByPool.unreserveAll _ h (poolSound_of_pool ?_ hreleased)
  rfl

/-- Every act keeps the creation order and the room of the pool. -/
theorem act_poolSound {s t : State} (ha : Act s t) (hs : s.PoolSound) : t.PoolSound := by
  have hP := poolSound_keptByPool
  cases ha with
  | reset => exact reset_poolSound _
  | link | deliver => exact poolSound_of_pool (s := s) rfl hs
  | advance pins order held => exact hP.recompute _ (hP.events.advanced s pins order held hs)
  | expire chainOrder e => exact hP.events.expiryRow hP.recompute s chainOrder e hs
  | command hc =>
    cases hc with
    | answer | join | threshold | token | clearOverflow | popLapsed | extend | setUpTimer | startTimer | stopTimer
    | loadTimer => exact poolSound_of_pool (s := s) rfl hs
    | leave => exact poolSound_of_pool (portLeft_pool s _) (depart_poolSound _ hs)
    | eject => exact poolSound_of_pool (ejectPort_pool s _) (depart_poolSound _ hs)
    | @configure src c r =>
      refine hP.recompute _ (hP.afterSourceSet _ s src (poolSound_of_pool ?_ hs))
      unfold State.setConfig
      split <;> rfl
    | flush => exact hP.flush s (emptied_poolSound s)
    | @readFault r rest =>
      unfold State.readFault
      dsimp only
      split
      · exact hP.recompute _ (hP.withdraw _ faultSource (poolSound_of_pool (s := s) rfl hs))
      · exact poolSound_of_pool (s := s) rfl hs
    | trigger | post => exact hP.recompute _ (occurrence_poolSound _ _ hs)
    | claim _ hu =>
      exact poolSound_of_pool (s := s.setTicket _ _) rfl (setTicket_poolSound _ (by rw [hu]; rfl) hs)
    | @retire h e rest => exact hP.recompute _ (hP.retireTicket _ h e.handle (poolSound_of_pool (s := s) rfl hs))

/-- Settles O57: the two laws do not look at the queue, and every act keeps them together. -/
theorem stepKeepsPoolOrderAndRoom : Obligations.StepKeepsPoolOrderAndRoom := fun _ _ horder hroom hstep =>
  step_keeps (P := State.PoolSound) (fun _ _ hs => hs) (fun _ _ => act_poolSound) ⟨horder, hroom⟩ hstep

end Sys2Proof.Machine
end

section
/-! SUPPORT. The laws of the pool: what the change of one slot, or of one deferral, has to meet to keep them. -/

namespace Sys2Proof.Machine

/-! ## Sets of hosts as sets -/

theorem has_and (S T : HostSet) (g : Port) : HostSet.has (S &&& T) g = (HostSet.has S g && HostSet.has T g) := by
  simp [HostSet.has]

/-- One set of hosts lies within another exactly when none of its members is missing there. -/
theorem and_not_eq_zero_iff {S T : HostSet} :
    S &&& ~~~ T = 0 ↔ ∀ g, HostSet.has S g = true → HostSet.has T g = true := by
  revert S T
  decide

theorem has_zero (g : Port) : HostSet.has 0 g = false := by simp [HostSet.has]

/-! ## The source table -/

/-- The level of a source reads the source table and the level of source 48 alone. -/
theorem config_level_congr {s t : State} (hsources : t.sources = s.sources) (hlevel : t.faultLevel = s.faultLevel)
    (src : SourceId) : (t.config src).level = (s.config src).level := by
  unfold State.config
  split
  · rw [hsources]
  · exact hlevel

/-- A source that is not below 48 is source 48. -/
theorem eq_faultSource_of_not_lt {src : SourceId} (h : ¬ src.val < 48) : src = faultSource :=
  Fin.ext (by have := src.isLt; change src.val = 48; omega)

/-- The ranges of the records read the source table alone: the record of source 48 keeps them whatever it is. -/
theorem sourceLaw_congr {s t : State} (hsources : t.sources = s.sources) (hs : s.SourceLaw) : t.SourceLaw := by
  intro src
  by_cases hlt : src.val < 48
  · have hconfig : t.config src = s.config src := by simp only [State.config, dif_pos hlt, hsources]
    rw [hconfig]
    exact hs src
  · obtain rfl := eq_faultSource_of_not_lt hlt
    rw [config_faultSource]
    exact ⟨(by decide : (7 : Fin 8) ≠ 0), nofun, nofun, fun _ => ⟨rfl, rfl⟩⟩

/-! ## The laws together -/

/-- The laws that speak of the tickets and deferrals, and of the stacks not at all. -/
structure State.PoolLaws (s : State) : Prop where
  sound : s.PoolSound
  ticket : s.TicketLaw
  deferral : s.DeferralLaw
  oneWaiting : s.OneWaitingLaw
  oneRound : s.OneRoundLaw
  post : s.PostLaw
  absent : s.AbsentLaw
  faultSource : s.FaultSourceLaw
  source : s.SourceLaw

/-- What the laws ask of one ticket on its own. -/
structure State.Fits (s : State) (u : Ticket) : Prop where
  law : u.Law
  owed : ∀ h : Port, s.attached h = false → HostSet.has u.owed h = false
  reservation : ∀ h : Port, s.attached h = false → ∀ r ∈ u.reservation, r.host ≠ h
  fault : s.faults.records = [] → u.source = Machine.faultSource → u.waits = false

theorem State.PoolLaws.fits {s : State} (hs : s.PoolLaws) {i : SlotId} {u : Ticket} (hu : s.ticketAt i = some u) :
    s.Fits u where
  law := hs.ticket i u hu
  owed h hd := (hs.absent h hd i u hu).1
  reservation h hd := (hs.absent h hd i u hu).2
  fault hnil := (hs.faultSource hnil).2 i u hu

/-- A source that is not posted has no other WAITING ticket than the one in slot i, and is not deferred. -/
def State.AloneWaiting (s : State) (i : SlotId) (src : SourceId) (d : Option Deferral) : Prop :=
  SourceId.posted src = false →
    (∀ j : SlotId, j ≠ i → ∀ v ∈ s.ticketAt j, v.source = src → v.waits = false) ∧ d = none

theorem State.PoolLaws.aloneWaiting {s : State} (hs : s.PoolLaws) {i : SlotId} {u : Ticket}
    (hu : s.ticketAt i = some u) (hwaits : u.waits = true) :
    s.AloneWaiting i u.source (s.deferralOf u.source) := fun hp => by
  refine ⟨fun j hj v hv hsrc => ?_, ?_⟩
  · by_contra hvw
    exact hj (hs.oneWaiting j i v hv u hu hsrc (hsrc ▸ hp) (by simpa using hvw) hwaits)
  · by_contra hd
    obtain ⟨d, hd⟩ := Option.ne_none_iff_exists'.1 hd
    have := (hs.deferral u.source d hd).2.2.2 i u hu rfl
    rw [hwaits] at this
    cases this

theorem State.PoolLaws.aloneInRound {s : State} (hs : s.PoolLaws) {i : SlotId} {u : Ticket}
    (hu : s.ticketAt i = some u) (hround : u.inRound = true) :
    ∀ j : SlotId, j ≠ i → ∀ v ∈ s.ticketAt j, v.source = u.source → v.inRound = false := fun j hj v hv hsrc => by
  by_contra hvr
  exact hj (hs.oneRound j i v hv u hu hsrc (by simpa using hvr) hround)

/-! ## The non-FREE count -/

theorem holdsSource_iff {s : State} {src : SourceId} {i : SlotId} :
    s.holdsSource src i = true ↔ ∃ u, s.ticketAt i = some u ∧ u.source = src := by
  unfold State.holdsSource
  cases s.ticketAt i <;> simp

/-- With one slot changed, the non-FREE count of a source rises only where that slot comes to hold its ticket. -/
theorem liveCount_le_of_slot {s t : State} {i : SlotId} {src : SourceId}
    (hother : ∀ j, j ≠ i → t.ticketAt j = s.ticketAt j) :
    t.liveCount src ≤ s.liveCount src
      ∨ (s.holdsSource src i = false ∧ t.holdsSource src i = true ∧ t.liveCount src = s.liveCount src + 1) := by
  have hsame (j : SlotId) (hj : j ≠ i) : t.holdsSource src j = s.holdsSource src j := by
    unfold State.holdsSource
    rw [hother j hj]
  by_cases hrise : s.holdsSource src i = false ∧ t.holdsSource src i = true
  · exact .inr ⟨hrise.1, hrise.2, countP_finRange_succ hrise.1 hrise.2 hsame⟩
  · refine .inl (List.countP_mono_left fun j _ hj => ?_)
    by_cases hji : j = i
    · subst hji
      simpa [hj] using hrise
    · rwa [← hsame j hji]

/-! ## One slot -/

/-- What the laws read beside the pool is in t as it is in s, or is on their side. -/
structure SameContext (s t : State) : Prop where
  attached (g : Port) : t.attached g = false → s.attached g = false
  sources : t.sources = s.sources
  faultLevel : t.faultLevel = s.faultLevel
  records : t.faults.records = [] → s.faults.records = []

theorem setOrder_onlyPool (s : State) (o : List SlotId) : OnlyPool s (s.setOrder o) := rfl

theorem OnlyPool.sameContext {s t : State} (h : OnlyPool s t) : SameContext s t :=
  ⟨fun g hg => by rwa [h.attached] at hg, h.sources, h.faultLevel, fun hnil => by rwa [h.faults] at hnil⟩

theorem SameContext.fits {s t : State} (h : SameContext s t) {u : Ticket} (hu : s.Fits u) : t.Fits u where
  law := hu.law
  owed g hg := hu.owed g (h.attached g hg)
  reservation g hg := hu.reservation g (h.attached g hg)
  fault hnil := hu.fault (h.records hnil)

/-- The laws stand where one slot changes to a ticket that fits, and that is the only WAITING one of its source, or
the only SPREAD one, if it is either; a posted source has room for it. -/
theorem State.PoolLaws.update {s t : State} (hs : s.PoolLaws) (i : SlotId) (hsound : t.PoolSound)
    (hcontext : SameContext s t) (hother : ∀ j, j ≠ i → t.ticketAt j = s.ticketAt j)
    (hdeferral : ∀ src, ∀ d ∈ t.deferralOf src, s.deferralOf src = some d)
    (hnew : ∀ u ∈ t.ticketAt i, s.Fits u ∧ (u.waits = true → s.AloneWaiting i u.source (t.deferralOf u.source))
      ∧ (u.inRound = true → ∀ j : SlotId, j ≠ i → ∀ v ∈ s.ticketAt j, v.source = u.source → v.inRound = false)
      ∧ (SourceId.posted u.source = true → s.holdsSource u.source i = true
          ∨ s.liveCount u.source < Config.postLimit)) : t.PoolLaws := by
  have hfits (j : SlotId) (u : Ticket) (hu : t.ticketAt j = some u) : s.Fits u := by
    by_cases hj : j = i
    · exact (hnew u (hj ▸ hu)).1
    · exact hs.fits ((hother j hj).symm.trans hu)
  have hlevel := config_level_congr hcontext.sources hcontext.faultLevel
  refine ⟨hsound, fun j u hu => (hfits j u hu).law, fun src d hd => ?_, fun j k u hu v hv hsrc hp hju hkv => ?_,
    fun j k u hu v hv hsrc hju hkv => ?_, fun src hp => ?_, fun h hh j u hu => ?_, fun hnil => ⟨?_, fun j u hu => ?_⟩,
    sourceLaw_congr hcontext.sources hs.source⟩
  · obtain ⟨hcount, hl, hp, hnone⟩ := hs.deferral src d (hdeferral src d hd)
    refine ⟨hcount, by rwa [hlevel], hp, fun j u hu hsrc => ?_⟩
    by_cases hj : j = i
    · subst hj
      by_contra hw
      have halone := (hnew u hu).2.1 (by simpa using hw) (hsrc ▸ hp)
      rw [hsrc, hd] at halone
      cases halone.2
    · exact hnone j u ((hother j hj).symm.trans hu) hsrc
  · by_cases hj : j = i
    · by_contra hne
      have hk : k ≠ i := fun h => hne (hj.trans h.symm)
      have := ((hnew u (hj ▸ hu)).2.1 hju hp).1 k hk v ((hother k hk).symm.trans hv) hsrc.symm
      rw [hkv] at this
      cases this
    · by_cases hk : k = i
      · have := ((hnew v (hk ▸ hv)).2.1 hkv (hsrc ▸ hp)).1 j hj u ((hother j hj).symm.trans hu) hsrc
        rw [hju] at this
        cases this
      · exact hs.oneWaiting j k u ((hother j hj).symm.trans hu) v ((hother k hk).symm.trans hv) hsrc hp hju hkv
  · by_cases hj : j = i
    · by_contra hne
      have hk : k ≠ i := fun h => hne (hj.trans h.symm)
      have := (hnew u (hj ▸ hu)).2.2.1 hju k hk v ((hother k hk).symm.trans hv) hsrc.symm
      rw [hkv] at this
      cases this
    · by_cases hk : k = i
      · have := (hnew v (hk ▸ hv)).2.2.1 hkv j hj u ((hother j hj).symm.trans hu) hsrc
        rw [hju] at this
        cases this
      · exact hs.oneRound j k u ((hother j hj).symm.trans hu) v ((hother k hk).symm.trans hv) hsrc hju hkv
  · rcases liveCount_le_of_slot (src := src) hother with hle | ⟨hbefore, hafter, hrise⟩
    · exact hle.trans (hs.post src hp)
    · obtain ⟨u, hu, rfl⟩ := holdsSource_iff.1 hafter
      rw [hrise]
      exact ((hnew u hu).2.2.2 hp).resolve_left (by simp [hbefore])
  · have hdetached := hcontext.attached h hh
    exact ⟨(hfits j u hu).owed h hdetached, (hfits j u hu).reservation h hdetached⟩
  · by_contra hd
    obtain ⟨d, hd⟩ := Option.ne_none_iff_exists'.1 hd
    have hold := hdeferral _ d hd
    rw [(hs.faultSource (hcontext.records hnil)).1] at hold
    cases hold
  · exact (hfits j u hu).fault (hcontext.records hnil)

/-- The laws stand where only what they do not read changes, and the order to another exact one. -/
theorem State.PoolLaws.congr {s t : State} (hs : s.PoolLaws) (hsound : t.PoolSound) (hcontext : SameContext s t)
    (hticket : ∀ j, t.ticketAt j = s.ticketAt j) (hdeferral : ∀ src, ∀ d ∈ t.deferralOf src, s.deferralOf src = some d) :
    t.PoolLaws := by
  refine hs.update 0 hsound hcontext (fun j _ => hticket j) hdeferral fun u hu => ?_
  rw [hticket] at hu
  refine ⟨hs.fits hu, fun hw hp => ?_, hs.aloneInRound hu, fun _ => .inl (holdsSource_iff.2 ⟨u, hu, rfl⟩)⟩
  obtain ⟨halone, hnone⟩ := hs.aloneWaiting hu hw hp
  refine ⟨halone, ?_⟩
  by_contra hd
  obtain ⟨d, hd⟩ := Option.ne_none_iff_exists'.1 hd
  have hold := hdeferral _ d hd
  rw [hnone] at hold
  cases hold

/-- The laws stand where the ticket of a slot is replaced by one of the same source that fits, and that waits or is
SPREAD only if the one before it did. -/
theorem State.PoolLaws.replace {s : State} (hs : s.PoolLaws) {i : SlotId} {u v : Ticket} (hu : s.ticketAt i = some u)
    (hsource : v.source = u.source) (hfits : s.Fits v) (hwaits : v.waits = true → u.waits = true)
    (hround : v.inRound = true → u.inRound = true) : (s.setTicket i v).PoolLaws := by
  refine hs.update i (setTicket_poolSound v (by rw [hu]; rfl) hs.sound) (setTicket_onlyPool s i v).sameContext
    (fun j hj => by rw [State.setTicket_ticketAt, if_neg hj]) (fun _ _ => id) fun w hw => ?_
  rw [State.setTicket_ticketAt, if_pos rfl] at hw
  obtain rfl := Option.some.inj hw
  refine ⟨hfits, fun hvw => ?_, fun hvr => ?_, fun _ => .inl (holdsSource_iff.2 ⟨u, hu, hsource.symm⟩)⟩
  · rw [hsource]
    exact hs.aloneWaiting hu (hwaits hvw)
  · rw [hsource]
    exact hs.aloneInRound hu (hround hvr)

/-! ## Deferrals -/

theorem State.PoolLaws.clear {s : State} (hs : s.PoolLaws) (src : SourceId) : (s.setDeferral src none).PoolLaws := by
  refine hs.congr (setDeferral_poolSound src nofun hs.sound) (setDeferral_onlyPool s src none).sameContext
    (fun _ => rfl) fun other d hd => ?_
  rw [Option.mem_def, State.setDeferral_deferralOf] at hd
  split at hd
  · cases hd
  · exact hd

/-- A source may be deferred while the pool is full, if it is enabled and not posted and has no WAITING ticket. -/
theorem State.PoolLaws.defer {s : State} (hs : s.PoolLaws) {src : SourceId} {d : Deferral}
    (hfull : ∀ i, (s.ticketAt i).isSome = true) (hcount : 1 ≤ d.count ∧ d.count ≤ Config.maxCount)
    (hl : (s.config src).level ≠ 0) (hp : SourceId.posted src = false)
    (hnone : ∀ i : SlotId, ∀ u ∈ s.ticketAt i, u.source = src → u.waits = false)
    (hfault : src = Machine.faultSource → s.faults.records ≠ []) : (s.setDeferral src (some d)).PoolLaws := by
  refine ⟨setDeferral_poolSound src (fun _ => hfull) hs.sound, hs.ticket, fun other e he => ?_, hs.oneWaiting,
    hs.oneRound, hs.post, hs.absent, fun hnil => ⟨?_, (hs.faultSource hnil).2⟩,
    sourceLaw_congr (s := s) rfl hs.source⟩
  · rw [Option.mem_def, State.setDeferral_deferralOf] at he
    split at he
    next hother =>
      obtain rfl := Option.some.inj he
      subst hother
      exact ⟨hcount, hl, hp, hnone⟩
    next => exact hs.deferral other e he
  · rw [State.setDeferral_deferralOf, if_neg fun h => hfault h.symm hnil]
    exact (hs.faultSource hnil).1

/-! ## Creations -/

/-- A count that saturates stays between 1 and 255 (R24). -/
theorem saturate_range {n : Nat} (h : 1 ≤ n) : 1 ≤ saturate n ∧ saturate n ≤ Config.maxCount :=
  ⟨Nat.le_min.2 ⟨h, by decide⟩, Nat.min_le_right _ _⟩

/-- A new ticket is reserved only for a host whose port is ATTACHED (R46). -/
theorem attached_of_reservationFor {s : State} {r : SourceRecord} {st : Time} {x : Reservation}
    (h : s.reservationFor r st = some x) : s.attached x.host = true := by
  unfold State.reservationFor at h
  split at h
  · split at h
    next hcond =>
      obtain rfl := Option.some.inj h
      exact hcond.2.1
    next => cases h
  · cases h

/-- A WAITING ticket has neither set (R21). -/
theorem claimed_within_of_waiting {u : Ticket} (h : u.standing = .waiting) : u.claimed &&& ~~~ u.owed = 0 := by
  simp [Ticket.claimed, Ticket.owed, h]

/-- A new ticket of an enabled source fits (R10, R34, R99). -/
theorem newTicket_fits {s : State} {src : SourceId} {c : Nat} {st : Time} {p : Option (BitVec 16)}
    (hsource : s.SourceLaw) (hl : (s.config src).level ≠ 0) (hc : 1 ≤ c ∧ c ≤ Config.maxCount)
    (hp : p.isSome = SourceId.posted src) (hfault : src = faultSource → s.faults.records ≠ []) :
    s.Fits (s.newTicket src c st p) where
  law := by
    have hretry := (hsource src).1
    refine ⟨hl, hc, hretry, ?_, hp, fun _ => rfl, fun _ => .inr rfl, nofun, claimed_within_of_waiting rfl, ?_⟩
    · split
      · rfl
      · exact Nat.pos_of_ne_zero fun h => hretry (Fin.ext h)
    · rintro rfl
      simp [State.newTicket, config_faultSource]
  owed _ _ := has_zero _
  reservation h hd r hr := by
    rintro rfl
    have := attached_of_reservationFor (Option.mem_def.1 hr)
    rw [hd] at this
    cases this
  fault hnil hsrc := absurd hnil (hfault hsrc)

/-- A creation in a free slot keeps the laws, for an enabled source with no pending work, or a posted one with room. -/
theorem State.PoolLaws.create {s : State} (hs : s.PoolLaws) {i : SlotId} {src : SourceId} {c : Nat} {st : Time}
    {p : Option (BitVec 16)} (hi : s.ticketAt i = none) (hl : (s.config src).level ≠ 0)
    (hc : 1 ≤ c ∧ c ≤ Config.maxCount) (hp : p.isSome = SourceId.posted src)
    (hfault : src = Machine.faultSource → s.faults.records ≠ [])
    (hpending : SourceId.posted src = false →
      (∀ j : SlotId, ∀ v ∈ s.ticketAt j, v.source = src → v.waits = false) ∧ s.deferralOf src = none)
    (hroom : SourceId.posted src = true → s.liveCount src < Config.postLimit) :
    (s.createTicket i src c st p).PoolLaws := by
  refine hs.update i (createTicket_poolSound src c st p hi hs.sound) (createTicket_onlyPool ..).sameContext
    (fun j hj => by rw [createTicket_ticketAt, if_neg hj]) (fun _ _ => id) fun u hu => ?_
  rw [createTicket_ticketAt, if_pos rfl] at hu
  obtain rfl := Option.some.inj hu
  refine ⟨newTicket_fits hs.source hl hc hp hfault, fun _ hpost => ?_, nofun, fun hpost => .inr (hroom hpost)⟩
  obtain ⟨hnone, hd⟩ := hpending hpost
  exact ⟨fun j _ => hnone j, hd⟩

/-- With no WAITING ticket that the creation order names, a source has none (R26). -/
theorem waits_eq_false_of_waitingTicket {s : State} (ho : s.OrderLaw) {src : SourceId}
    (hw : s.waitingTicket src = none) : ∀ i : SlotId, ∀ u ∈ s.ticketAt i, u.source = src → u.waits = false := by
  rintro i u hu rfl
  have hmem : i ∈ s.pool.order := (ho.2 i).2 (by rw [Option.mem_def.1 hu]; rfl)
  have hno := List.find?_eq_none.1 hw i hmem
  rw [State.waitsFor, Option.mem_def.1 hu] at hno
  simpa [Ticket.waits] using hno

/-- The WAITING ticket of a source is a live ticket of that source that waits. -/
theorem ticket_of_waitingTicket {s : State} {src : SourceId} {i : SlotId} (hw : s.waitingTicket src = some i) :
    ∃ u, s.ticketAt i = some u ∧ u.source = src ∧ u.waits = true := by
  have hwaits := List.find?_some hw
  unfold State.waitsFor at hwaits
  split at hwaits
  next u hu =>
    rw [Bool.and_eq_true, beq_iff_eq] at hwaits
    exact ⟨u, hu, hwaits.1, hwaits.2⟩
  next => cases hwaits

/-- Coalescing counts one more occurrence in a ticket (case 3 of R9). -/
theorem State.PoolLaws.coalesce {s : State} (hs : s.PoolLaws) (i : SlotId) : (s.coalesce i).PoolLaws := by
  unfold State.coalesce
  split
  next => exact hs
  next u hu =>
    have hfits := hs.fits hu
    obtain ⟨hl, -, hrest⟩ := hfits.law
    exact hs.replace hu rfl ⟨⟨hl, saturate_range (Nat.le_add_left 1 _), hrest⟩, hfits.owed, hfits.reservation,
      hfits.fault⟩ id id

/-- An occurrence keeps the laws: of a posted source with room, or of source 48 with a record in the queue (R9). -/
theorem State.PoolLaws.occurrence {s : State} (hs : s.PoolLaws) {src : SourceId} (p : BitVec 16)
    (hroom : SourceId.posted src = true → s.liveCount src < Config.postLimit)
    (hfault : src = Machine.faultSource → s.faults.records ≠ []) : (s.occurrence src p).PoolLaws := by
  have hone : 1 ≤ 1 ∧ 1 ≤ Config.maxCount := by decide
  rcases occurrence_cases s src p with ⟨-, heq⟩ | ⟨hl, hp, ⟨i, hi, heq⟩ | ⟨-, heq⟩⟩
    | ⟨hl, hp, ⟨i, -, heq⟩ | ⟨hw, ⟨d, hd, heq⟩ | ⟨hd, ⟨i, hi, heq⟩ | ⟨hfull, heq⟩⟩⟩⟩ <;> rw [heq]
  · exact hs
  · exact hs.create (lowestFree_eq_some.1 hi).1 hl hone hp.symm hfault (fun hpost => by simp [hp] at hpost) hroom
  · exact hs
  · exact hs.coalesce i
  · have hnone := waits_eq_false_of_waitingTicket hs.sound.1 hw
    exact hs.defer (hs.sound.2 ⟨src, by rw [hd]; rfl⟩) (saturate_range (Nat.le_add_left 1 _)) hl hp hnone hfault
  · have hnone := waits_eq_false_of_waitingTicket hs.sound.1 hw
    exact hs.create (lowestFree_eq_some.1 hi).1 hl hone hp.symm hfault (fun _ => ⟨hnone, hd⟩) hroom
  · have hnone := waits_eq_false_of_waitingTicket hs.sound.1 hw
    exact hs.defer (lowestFree_eq_none.1 hfull) hone hl hp hnone hfault

/-! ## Freeings -/

/-- The tickets after a freeing: the slot is FREE, or has a new ticket of the source the arbiter serves (R31, R34). -/
theorem State.PoolLaws.free {s : State} (hs : s.PoolLaws) (i : SlotId) : (s.freeTicket i).PoolLaws := by
  have hsound := freeTicket_poolSound s i hs.sound
  have hcontext := (freeTicket_onlyPool s i).sameContext
  have hcleared (j : SlotId) : (s.clearSlot i).ticketAt j = if j = i then none else s.ticketAt j := by
    rw [State.ticketAt, clearSlot_slotAt]
    split <;> rfl
  rcases freeTicket_cases s i with ⟨-, heq⟩ | ⟨-, -, heq⟩ | ⟨src, d, -, -, hd, heq⟩ <;> rw [heq] at hsound hcontext ⊢
  · exact hs
  · refine hs.update i hsound hcontext (fun j hj => by rw [hcleared, if_neg hj]) (fun _ _ => id) fun u hu => ?_
    rw [hcleared, if_pos rfl] at hu
    cases hu
  · have hticket (j : SlotId) :
        (((s.clearSlot i).createTicket i src d.count d.stamp none).setDeferral src none).ticketAt j =
          if j = i then some (s.newTicket src d.count d.stamp none) else s.ticketAt j := by
      change ((s.clearSlot i).createTicket i src d.count d.stamp none).ticketAt j = _
      rw [createTicket_ticketAt, hcleared]
      split <;> rfl
    obtain ⟨hcount, hl, hp, hnone⟩ := hs.deferral src d hd
    refine hs.update i hsound hcontext (fun j hj => by rw [hticket, if_neg hj]) (fun other e he => ?_) fun u hu => ?_
    · rw [Option.mem_def, State.setDeferral_deferralOf] at he
      split at he
      · cases he
      · exact he
    · rw [Option.mem_def, hticket, if_pos rfl] at hu
      obtain rfl := Option.some.inj hu
      have hfault : src = Machine.faultSource → s.faults.records ≠ [] := by
        rintro rfl hnil
        rw [(hs.faultSource hnil).1] at hd
        cases hd
      refine ⟨newTicket_fits hs.source hl hcount hp.symm hfault, fun _ _ => ⟨fun j _ => hnone j, ?_⟩, nofun,
        fun hpost => ?_⟩
      · exact (State.setDeferral_deferralOf _ src src none).trans (if_pos rfl)
      · have : SourceId.posted src = true := hpost
        rw [hp] at this
        cases this

/-! ## Returns and merges -/

/-- A HELD ticket is SINGLE (R51). -/
theorem single_of_held {u : Ticket} {g : Port} (h : u.Law) (hheld : u.standing = .held g) : u.policy = .single := by
  obtain ⟨-, -, -, -, -, -, heach, -⟩ := h
  cases hp : u.policy with
  | single => rfl
  | each => have := heach hp; simp [Ticket.inRound, Ticket.waits, hheld] at this

/-- The count of a returned ticket with that of its source's deferral (R83). -/
def returnedCount (u : Ticket) (d : Option Deferral) : Nat :=
  (d.map fun d => saturate (u.count + d.count)).getD u.count

theorem returnedCount_range {u : Ticket} (h : u.Law) (d : Option Deferral) :
    1 ≤ returnedCount u d ∧ returnedCount u d ≤ Config.maxCount := by
  cases d with
  | none => exact h.2.1
  | some d => exact saturate_range (h.2.1.1.trans (Nat.le_add_right _ _))

/-- A returned ticket whose source has no other WAITING ticket waits again, with its source's deferral (R83). -/
theorem State.PoolLaws.wait {s : State} (hs : s.PoolLaws) {i : SlotId} {u : Ticket} {g : Port}
    (hu : s.ticketAt i = some u) (hheld : u.standing = .held g) (hw : s.mergeTarget u.source = none)
    (hgone : s.conditionGone u.source = false) :
    ((s.setTicket i { u with standing := .waiting, count := returnedCount u (s.deferralOf u.source) }).setDeferral
      u.source none).PoolLaws := by
  have hfits := hs.fits hu
  have hsingle := single_of_held hfits.law hheld
  refine hs.update i (setDeferral_poolSound _ nofun (setTicket_poolSound _ (by rw [hu]; rfl) hs.sound))
    (OnlyPool.trans (setTicket_onlyPool s i _) (setDeferral_onlyPool _ _ _)).sameContext
    (fun j hj => ?_) (fun other d hd => ?_) fun v hv => ?_
  · change (s.setTicket i _).ticketAt j = _
    rw [State.setTicket_ticketAt, if_neg hj]
  · rw [Option.mem_def, State.setDeferral_deferralOf] at hd
    split at hd
    · cases hd
    · exact hd
  · change (s.setTicket i _).ticketAt i = some v at hv
    rw [State.setTicket_ticketAt, if_pos rfl] at hv
    obtain rfl := Option.some.inj hv
    obtain ⟨hl, -, hretry, hlapses, hpayload, -, -, -, -, hfault⟩ := hfits.law
    refine ⟨⟨⟨hl, returnedCount_range hfits.law _, hretry, hlapses, hpayload, fun _ => rfl, fun _ => .inr rfl, nofun,
      claimed_within_of_waiting rfl, hfault⟩, fun _ _ => has_zero _, hfits.reservation, fun hnil hsrc => ?_⟩, fun _ hp => ⟨fun j _ => ?_, ?_⟩,
      nofun, fun _ => .inl (holdsSource_iff.2 ⟨u, hu, rfl⟩)⟩
    · have hsource : u.source = Machine.faultSource := hsrc
      simp [State.conditionGone, hsource, hnil] at hgone
    · have hposted : SourceId.posted u.source = false := hp
      rw [State.mergeTarget, hposted] at hw
      exact waits_eq_false_of_waitingTicket hs.sound.1 hw j
    · rw [State.setDeferral_deferralOf, if_pos rfl]

/-- The survivor of a merge fits: its count saturates, and its lapse count stays below its retry limit (R84). -/
theorem mergedTicket_fits {s : State} {u v : Ticket} (hv : s.Fits v) (older : Bool) :
    s.Fits (mergedTicket u v older) := by
  obtain ⟨hl, hc, hretry, -, hrest⟩ := hv.law
  refine ⟨⟨hl, saturate_range (hc.1.trans (Nat.le_add_left _ _)), hretry, ?_, hrest⟩, hv.owed, hv.reservation, hv.fault⟩
  have hpos : 0 < v.retryLimit.val := Nat.pos_of_ne_zero fun h => hretry (Fin.ext h)
  by_cases heach : v.policy = .each
  · simp [mergedTicket, heach]
  · simp only [mergedTicket, heach, if_false]
    omega

theorem State.PoolLaws.merge {s : State} (hs : s.PoolLaws) {r w : SlotId} {u : Ticket}
    (hu : s.ticketAt r = some u) (hw : s.mergeTarget u.source = some w) : (s.mergeInto r w).PoolLaws := by
  have hwaiting : s.waitingTicket u.source = some w := by
    unfold State.mergeTarget at hw
    split at hw
    · cases hw
    · exact hw
  obtain ⟨v, hv, -, -⟩ := ticket_of_waitingTicket hwaiting
  rw [mergeInto_eq hu hv]
  have hmerged := hs.replace (v := mergedTicket u v (s.olderThan r w)) hv rfl (mergedTicket_fits (hs.fits hv) _) id id
  have hlive (i : SlotId) (hi : (s.ticketAt i).isSome = true) : i ∈ s.pool.order := (hs.sound.1.2 i).2 hi
  have hperm := mergedOrder_perm (rOlder := s.olderThan r w) hs.sound.1.1 (hlive r (by rw [hu]; rfl))
    (hlive w (by rw [hv]; rfl)) ne_of_olderThan
  refine (hmerged.congr (t := (s.setTicket w _).setOrder (mergedOrder s.pool.order r w (s.olderThan r w))) ?_
    (setOrder_onlyPool _ _).sameContext (fun _ => rfl) fun _ _ => id).free r
  exact ⟨⟨hperm.nodup_iff.2 hs.sound.1.1, fun i => hperm.mem_iff.trans (hmerged.sound.1.2 i)⟩, hmerged.sound.2⟩

/-! ## Rounds, lapses and reservations -/

/-- A round narrowed to some of its hosts keeps the laws while one of them is owed (R70, R87). -/
theorem State.PoolLaws.narrow {s : State} (hs : s.PoolLaws) {i : SlotId} {u : Ticket} {o c : HostSet}
    {x : Option Time} (kept : HostSet) (expiry : Option Time) (hu : s.ticketAt i = some u)
    (hround : u.standing = .spread o c x) (hne : o &&& kept ≠ 0) :
    (s.setTicket i { u with standing := .spread (o &&& kept) (c &&& kept) expiry }).PoolLaws := by
  have hfits := hs.fits hu
  have hin : u.inRound = true := by simp [Ticket.inRound, hround]
  have howed : u.owed = o := by simp [Ticket.owed, hround]
  have hclaimed : u.claimed = c := by simp [Ticket.claimed, hround]
  obtain ⟨hl, hc, hretry, hlapses, hpayload, hsingle, -, -, hwithin, hfault⟩ := hfits.law
  rw [howed, hclaimed, and_not_eq_zero_iff] at hwithin
  refine hs.replace hu rfl ⟨⟨hl, hc, hretry, hlapses, hpayload, fun hp => ?_, fun _ => .inl rfl, fun _ => hne,
    and_not_eq_zero_iff.2 fun g hg => ?_, hfault⟩, fun h hd => ?_, hfits.reservation, fun _ _ => rfl⟩ nofun fun _ => hin
  · have := hsingle hp
    rw [hin] at this
    cases this
  · change HostSet.has (o &&& kept) g = true
    have hmem : HostSet.has (c &&& kept) g = true := hg
    rw [has_and, Bool.and_eq_true] at hmem ⊢
    exact ⟨hwithin g hmem.1, hmem.2⟩
  · have := hfits.owed h hd
    rw [howed] at this
    change HostSet.has (o &&& kept) h = false
    rw [has_and, this, Bool.false_and]

/-- A lapse below the retry limit counts in the ticket (R81). -/
theorem State.PoolLaws.lapse {s : State} (hs : s.PoolLaws) {i : SlotId} {u : Ticket} {g : Port}
    (hu : s.ticketAt i = some u) (hheld : u.standing = .held g) (hbelow : u.lapses + 1 < u.retryLimit.val) :
    (s.setTicket i { u with lapses := u.lapses + 1 }).PoolLaws := by
  have hfits := hs.fits hu
  have hsingle := single_of_held hfits.law hheld
  obtain ⟨hl, hc, hretry, -, hrest⟩ := hfits.law
  refine hs.replace hu rfl ⟨⟨hl, hc, hretry, ?_, hrest⟩, hfits.owed, hfits.reservation, hfits.fault⟩ id id
  change if u.policy = .each then u.lapses + 1 = 0 else u.lapses + 1 < u.retryLimit.val
  rw [if_neg (by rw [hsingle]; nofun)]
  exact hbelow

theorem State.PoolLaws.unreserve {s : State} (hs : s.PoolLaws) {i : SlotId} {u : Ticket}
    (hu : s.ticketAt i = some u) : (s.setTicket i { u with reservation := none }).PoolLaws := by
  have hfits := hs.fits hu
  exact hs.replace hu rfl ⟨hfits.law, hfits.owed, nofun, hfits.fault⟩ id id

/-- A ticket without its reservation, if that is for host h (R48). -/
def Ticket.unreservedFor (u : Ticket) (h : Port) : Ticket :=
  { u with reservation := u.reservation.filter fun r => r.host ≠ h }

/-- The tickets after the reservations of host h have ended (R48). -/
theorem endReservationsOf_ticketAt (s : State) (h : Port) (i : SlotId) :
    (s.endReservationsOf h).ticketAt i = (s.ticketAt i).map fun u => u.unreservedFor h := by
  rw [State.ticketAt, endReservationsOf_slotAt]
  refine Option.map_congr fun u _ => ?_
  obtain ⟨_, _, _, _, _, _, reservation, _⟩ := u
  unfold Ticket.unreservedFor
  cases reservation with
  | none => rfl
  | some r => by_cases hr : r.host = h <;> simp [hr, Option.filter]

theorem State.PoolLaws.unreserveAll {s : State} (hs : s.PoolLaws) (h : Port) : (s.endReservationsOf h).PoolLaws := by
  have hcontext := (endReservationsOf_onlyPool s h).sameContext
  have hold {i : SlotId} {v : Ticket} (hv : (s.endReservationsOf h).ticketAt i = some v) :
      ∃ u, s.ticketAt i = some u ∧ v = u.unreservedFor h := by
    rw [endReservationsOf_ticketAt, Option.map_eq_some_iff] at hv
    obtain ⟨u, hu, rfl⟩ := hv
    exact ⟨u, hu, rfl⟩
  have hcount (src : SourceId) : (s.endReservationsOf h).liveCount src = s.liveCount src := by
    refine congrArg (fun p => (List.finRange 64).countP p) (funext fun i => ?_)
    unfold State.holdsSource
    rw [endReservationsOf_ticketAt]
    cases s.ticketAt i <;> rfl
  refine ⟨poolSound_keptByPool.unreserveAll s h hs.sound, fun i v hv => ?_, fun src d hd => ?_,
    fun i j v hv w hw => ?_, fun i j v hv w hw => ?_, fun src hp => ?_, fun g hg i v hv => ?_, fun hnil => ⟨?_,
    fun i v hv => ?_⟩, sourceLaw_congr hcontext.sources hs.source⟩
  · obtain ⟨u, hu, rfl⟩ := hold hv
    exact hs.ticket i u hu
  · rw [endReservationsOf_deferralOf] at hd
    obtain ⟨hc, hl, hp, hnone⟩ := hs.deferral src d hd
    refine ⟨hc, by rwa [config_level_congr hcontext.sources hcontext.faultLevel], hp, fun i v hv => ?_⟩
    obtain ⟨u, hu, rfl⟩ := hold hv
    exact hnone i u hu
  · obtain ⟨u, hu, rfl⟩ := hold hv
    obtain ⟨x, hx, rfl⟩ := hold hw
    exact hs.oneWaiting i j u hu x hx
  · obtain ⟨u, hu, rfl⟩ := hold hv
    obtain ⟨x, hx, rfl⟩ := hold hw
    exact hs.oneRound i j u hu x hx
  · rw [hcount]
    exact hs.post src hp
  · obtain ⟨u, hu, rfl⟩ := hold hv
    obtain ⟨howed, hreservation⟩ := hs.absent g (hcontext.attached g hg) i u hu
    exact ⟨howed, fun r hr => hreservation r (Option.mem_filter_iff.1 hr).1⟩
  · rw [endReservationsOf_deferralOf]
    exact (hs.faultSource (hcontext.records hnil)).1
  · obtain ⟨u, hu, rfl⟩ := hold hv
    exact (hs.faultSource (hcontext.records hnil)).2 i u hu

/-- The laws are kept by every change of the pool. -/
theorem poolLaws_keptByPool : KeptByPool State.PoolLaws where
  congr s t hpool hattached hsources hlevel hrecords hs :=
    hs.congr (poolSound_of_pool hpool hs.sound) ⟨fun g hg => by rwa [hattached] at hg, hsources, hlevel, hrecords⟩
      (fun i => by rw [State.ticketAt, State.slotAt, hpool]; rfl)
      (fun src d hd => by rwa [State.deferralOf, hpool] at hd)
  occurrence p hroom hfault hs := hs.occurrence p hroom hfault
  free _ i hs := hs.free i
  clear _ src hs := hs.clear src
  wait hu hheld hw hgone hs := hs.wait hu hheld hw hgone
  merge hu _ hw hs := hs.merge hu hw
  narrow kept expiry hu hround hne hs := hs.narrow kept expiry hu hround hne
  lapse hu hheld hbelow hs := hs.lapse hu hheld hbelow
  unreserve hu hs := hs.unreserve hu
  unreserveAll _ h hs := hs.unreserveAll h

end Sys2Proof.Machine
end

section
/-! SUPPORT. What an operation of the pool leaves undisturbed: the tickets in service, which only their hosts and their
expiries touch (R23, R31). -/

namespace Sys2Proof.Machine

/-! ## Idle slots -/

/-- No ticket of the slot is in service: it is FREE, or its ticket waits. -/
def State.Idle (s : State) (i : SlotId) : Prop := ∀ u ∈ s.ticketAt i, u.waits = true

theorem idle_of_free {s : State} {i : SlotId} (h : s.ticketAt i = none) : s.Idle i := fun u hu => by
  rw [h] at hu
  cases hu

theorem idle_of_waits {s : State} {i : SlotId} {u : Ticket} (hu : s.ticketAt i = some u) (hw : u.waits = true) :
    s.Idle i := fun v hv => by
  rw [Option.mem_unique hv hu]
  exact hw

theorem idle_congr {s t : State} {i : SlotId} (h : t.slotAt i = s.slotAt i) (hs : s.Idle i) : t.Idle i := fun u hu => by
  rw [State.ticketAt, h] at hu
  exact hs u hu

theorem idle_of_waitingTicket {s : State} {src : SourceId} {i : SlotId} (h : s.waitingTicket src = some i) :
    s.Idle i := by
  obtain ⟨u, hu, -, hw⟩ := ticket_of_waitingTicket h
  exact idle_of_waits hu hw

/-- From s to t slot i stays, or it is idle in both. -/
def UndisturbedAt (s t : State) (i : SlotId) : Prop := t.slotAt i = s.slotAt i ∨ (s.Idle i ∧ t.Idle i)

/-- From s to t no ticket in service is touched, and none comes into service. -/
structure Undisturbed (s t : State) : Prop where
  slot (i : SlotId) : UndisturbedAt s t i

theorem UndisturbedAt.idle {s t : State} {i : SlotId} (h : UndisturbedAt s t i) (hs : s.Idle i) : t.Idle i :=
  h.elim (fun heq => idle_congr heq hs) And.right

theorem UndisturbedAt.trans {s t u : State} {i : SlotId} (h1 : UndisturbedAt s t i) (h2 : UndisturbedAt t u i) :
    UndisturbedAt s u i := by
  rcases h1 with heq1 | ⟨hs, ht⟩
  · rcases h2 with heq2 | ⟨ht, hu⟩
    · exact .inl (heq2.trans heq1)
    · exact .inr ⟨idle_congr heq1.symm ht, hu⟩
  · exact .inr ⟨hs, h2.idle ht⟩

theorem Undisturbed.refl (s : State) : Undisturbed s s := ⟨fun _ => .inl rfl⟩

theorem Undisturbed.trans {s t u : State} (h1 : Undisturbed s t) (h2 : Undisturbed t u) : Undisturbed s u :=
  ⟨fun i => (h1.slot i).trans (h2.slot i)⟩

/-- A slot with a ticket in service stays. -/
theorem UndisturbedAt.slotAt {s t : State} {i : SlotId} {u : Ticket} (h : UndisturbedAt s t i)
    (hu : s.ticketAt i = some u) (hw : u.waits = false) : t.slotAt i = s.slotAt i := by
  refine h.resolve_right fun hidle => ?_
  rw [hidle.1 u hu] at hw
  cases hw

/-- A ticket in service after an undisturbed change was there before it, in the same slot. -/
theorem UndisturbedAt.slotAt_back {s t : State} {i : SlotId} {u : Ticket} (h : UndisturbedAt s t i)
    (hu : t.ticketAt i = some u) (hw : u.waits = false) : t.slotAt i = s.slotAt i := by
  refine h.resolve_right fun hidle => ?_
  rw [hidle.2 u hu] at hw
  cases hw

theorem undisturbed_of_pool {s t : State} (h : t.pool = s.pool) : Undisturbed s t :=
  ⟨fun i => .inl (by rw [State.slotAt, h]; rfl)⟩

/-- A slot of a freed ticket is idle, and the other slots stay (R31). -/
theorem freeTicket_slotAt_of_ne (s : State) {i j : SlotId} (hj : j ≠ i) :
    (s.freeTicket i).slotAt j = s.slotAt j := by
  rcases freeTicket_cases s i with ⟨-, heq⟩ | ⟨-, -, heq⟩ | ⟨src, d, -, -, -, heq⟩ <;> rw [heq]
  · rw [clearSlot_slotAt, if_neg hj]
  · rw [State.setDeferral_slotAt, createTicket_slotAt, if_neg hj, clearSlot_slotAt, if_neg hj]

theorem freeTicket_idle (s : State) (i : SlotId) : (s.freeTicket i).Idle i := by
  rcases freeTicket_cases s i with ⟨hfree, heq⟩ | ⟨-, -, heq⟩ | ⟨src, d, -, -, -, heq⟩ <;> rw [heq]
  · exact idle_of_free hfree
  · exact idle_of_free (by rw [State.ticketAt, clearSlot_slotAt, if_pos rfl])
  · refine idle_of_waits (u := s.newTicket src d.count d.stamp none) ?_ rfl
    rw [State.ticketAt, State.setDeferral_slotAt, ← State.ticketAt, createTicket_ticketAt, if_pos rfl]
    rfl

/-- A freeing touches no other slot than its own. -/
theorem freeTicket_undisturbedAt (s : State) {i j : SlotId} (h : j = i → s.Idle i) :
    UndisturbedAt s (s.freeTicket i) j := by
  by_cases hj : j = i
  · subst hj
    exact .inr ⟨h rfl, freeTicket_idle s j⟩
  · exact .inl (freeTicket_slotAt_of_ne s hj)

theorem freeTicket_undisturbed {s : State} {i : SlotId} (h : s.Idle i) : Undisturbed s (s.freeTicket i) :=
  ⟨fun _ => freeTicket_undisturbedAt s fun _ => h⟩

/-- A ticket written in an idle slot that waits itself disturbs nothing. -/
theorem setTicket_undisturbed {s : State} {i : SlotId} {u : Ticket} (h : s.Idle i) (hu : u.waits = true) :
    Undisturbed s (s.setTicket i u) := ⟨fun j => by
  by_cases hj : j = i
  · subst hj
    exact .inr ⟨h, idle_of_waits (by rw [State.setTicket_ticketAt, if_pos rfl]) hu⟩
  · exact .inl (by rw [State.setTicket_slotAt, if_neg hj])⟩

theorem createTicket_undisturbed {s : State} {i : SlotId} (h : s.ticketAt i = none) (src : SourceId) (c : Nat)
    (st : Time) (p : Option (BitVec 16)) : Undisturbed s (s.createTicket i src c st p) := ⟨fun j => by
  by_cases hj : j = i
  · subst hj
    exact .inr ⟨idle_of_free h, idle_of_waits (u := s.newTicket src c st p)
      (by rw [createTicket_ticketAt, if_pos rfl]) rfl⟩
  · exact .inl (by rw [createTicket_slotAt, if_neg hj])⟩

theorem setDeferral_undisturbed (s : State) (src : SourceId) (d : Option Deferral) :
    Undisturbed s (s.setDeferral src d) := ⟨fun i => .inl (State.setDeferral_slotAt s src d i)⟩

/-- An occurrence makes a WAITING ticket, or counts in one, or in a deferral (R9). -/
theorem occurrence_undisturbed (s : State) (src : SourceId) (p : BitVec 16) : Undisturbed s (s.occurrence src p) := by
  rcases occurrence_cases s src p with ⟨-, heq⟩ | ⟨-, -, ⟨i, hi, heq⟩ | ⟨-, heq⟩⟩
    | ⟨-, -, ⟨i, hi, heq⟩ | ⟨-, ⟨d, -, heq⟩ | ⟨-, ⟨i, hi, heq⟩ | ⟨-, heq⟩⟩⟩⟩ <;> rw [heq]
  · exact .refl s
  · exact createTicket_undisturbed (lowestFree_eq_some.1 hi).1 ..
  · exact .refl s
  · obtain ⟨u, hu, -, hw⟩ := ticket_of_waitingTicket hi
    rw [State.coalesce, hu]
    exact setTicket_undisturbed (idle_of_waits hu hw) hw
  · exact setDeferral_undisturbed ..
  · exact createTicket_undisturbed (lowestFree_eq_some.1 hi).1 ..
  · exact setDeferral_undisturbed ..

theorem withdraw_undisturbed (s : State) (src : SourceId) : Undisturbed s (s.withdraw src) := by
  unfold State.withdraw
  split
  next i hi => exact (freeTicket_undisturbed (idle_of_waitingTicket hi)).trans (setDeferral_undisturbed ..)
  next => exact setDeferral_undisturbed ..

/-- The freeing of idle slots, one after the other, disturbs nothing. -/
theorem foldl_freeTicket_undisturbed {l : List SlotId} {s : State} (h : ∀ i ∈ l, s.Idle i) :
    Undisturbed s (l.foldl State.freeTicket s) := by
  induction l generalizing s with
  | nil => exact .refl s
  | cons i l ih =>
    have hfirst := freeTicket_undisturbed (h i (by simp))
    exact hfirst.trans (ih fun j hj => (hfirst.slot j).idle (h j (by simp [hj])))

theorem idle_of_waitsFor {s : State} {src : SourceId} {i : SlotId} (h : s.waitsFor src i = true) : s.Idle i := by
  unfold State.waitsFor at h
  split at h
  next u hu => exact idle_of_waits hu (Bool.and_eq_true_iff.1 h).2
  next => cases h

theorem disable_undisturbed (s : State) (src : SourceId) : Undisturbed s (s.disable src) :=
  (foldl_freeTicket_undisturbed fun _ hi => idle_of_waitsFor (List.mem_filter.1 hi).2).trans
    (setDeferral_undisturbed ..)

theorem rearm_undisturbed (s : State) (src : SourceId) : Undisturbed s (s.rearm src) := by
  unfold State.rearm
  split
  · exact occurrence_undisturbed s src 0
  · exact .refl s

theorem appendFault_undisturbed (s : State) (r : FaultRecord) : Undisturbed s (s.appendFault r) :=
  (undisturbed_of_pool (s := s) (t := { s with faults := s.faults.appended r }) rfl).trans
    (occurrence_undisturbed _ faultSource 0)

theorem foldl_undisturbed {α : Type} {f : State → α → State} (hf : ∀ s a, Undisturbed s (f s a)) (l : List α)
    (s : State) : Undisturbed s (l.foldl f s) :=
  foldl_keeps (P := Undisturbed s) (fun t a ht => ht.trans (hf t a)) l s (.refl s)

theorem afterSourceSet_undisturbed (s before : State) (src : SourceId) :
    Undisturbed s (s.afterSourceSet before src) := by
  rw [afterSourceSet_eq]
  have hocc : Undisturbed s (s.occurrenceOnSet before src) := by
    unfold State.occurrenceOnSet
    split
    · exact occurrence_undisturbed s src 0
    · exact .refl s
  have hwithdraw (t : State) : Undisturbed t (t.withdrawInactive src) := by
    unfold State.withdrawInactive
    split
    · exact withdraw_undisturbed t src
    · exact .refl t
  have hdisable (t : State) : Undisturbed t (t.disableOff src) := by
    unfold State.disableOff
    split
    · exact disable_undisturbed t src
    · exact .refl t
  exact (hocc.trans (hwithdraw _)).trans (hdisable _)

theorem recognisedChange_undisturbed (s : State) (n : LineId) (level : Bool) :
    Undisturbed s (s.recognisedChange n level) := by
  unfold State.recognisedChange
  dsimp only
  split
  case h_2 | h_3 => exact .refl s
  case h_7 | h_8 => exact withdraw_undisturbed s _
  all_goals exact occurrence_undisturbed s _ 0

theorem sampleLine_undisturbed (s : State) (n : LineId) (level : Bool) : Undisturbed s (s.sampleLine n level) := by
  have hline (l : Line) : Undisturbed s (s.setLine n l) := undisturbed_of_pool rfl
  unfold State.sampleLine
  dsimp only
  split_ifs
  · exact hline _
  · exact hline _
  · exact (hline _).trans (recognisedChange_undisturbed _ n level)
  · exact hline _

theorem stepTimer_undisturbed (s : State) (n : TimerId) (chainOrder : List TimerId) :
    Undisturbed s (s.stepTimer n chainOrder) := by
  unfold State.stepTimer
  dsimp only
  split
  · exact (undisturbed_of_pool (s := s) (t := { s with timers := (stepBank 8 n s.timers).1 }) rfl).trans
      (foldl_undisturbed (fun t m => occurrence_undisturbed t (timerSource m) 0) _ _)
  · exact undisturbed_of_pool rfl

/-! ## A host lets go of a ticket -/

/-- From s to t slot i becomes idle, and no ticket in service in another slot is touched. -/
structure Vacates (s t : State) (i : SlotId) : Prop where
  others (j : SlotId) : j ≠ i → UndisturbedAt s t j
  idle : t.Idle i

theorem Vacates.trans {s t u : State} {i : SlotId} (h1 : Vacates s t i) (h2 : Undisturbed t u) : Vacates s u i :=
  ⟨fun j hj => (h1.others j hj).trans (h2.slot j), (h2.slot i).idle h1.idle⟩

theorem freeTicket_vacates (s : State) (i : SlotId) : Vacates s (s.freeTicket i) i :=
  ⟨fun _ hj => freeTicket_undisturbedAt s fun hji => absurd hji hj, freeTicket_idle s i⟩

theorem settle_vacates (s : State) (i : SlotId) (src : SourceId) : Vacates s (s.settle i src) i :=
  (freeTicket_vacates s i).trans (rearm_undisturbed _ src)

/-- A ticket written in a slot touches no other slot. -/
theorem setTicket_undisturbedAt (s : State) {i j : SlotId} (u : Ticket) (hj : j ≠ i) :
    UndisturbedAt s (s.setTicket i u) j := .inl (by rw [State.setTicket_slotAt, if_neg hj])

theorem setTicket_vacates (s : State) (i : SlotId) {u : Ticket} (hw : u.waits = true) :
    Vacates s (s.setTicket i u) i :=
  ⟨fun _ hj => setTicket_undisturbedAt s u hj, idle_of_waits (by rw [State.setTicket_ticketAt, if_pos rfl]) hw⟩

/-- The WAITING ticket that a returned ticket joins is the WAITING ticket of its source (R83). -/
theorem waitingTicket_of_mergeTarget {s : State} {src : SourceId} {w : SlotId} (h : s.mergeTarget src = some w) :
    s.waitingTicket src = some w := by
  unfold State.mergeTarget at h
  split at h
  · cases h
  · exact h

/-- A returned ticket is freed, or waits again (R83). -/
theorem returnTicket_vacates {s : State} {i : SlotId} {u : Ticket} (hu : s.ticketAt i = some u) :
    Vacates s (s.returnTicket i) i := by
  rcases returnTicket_cases hu with ⟨-, heq⟩ | ⟨-, ⟨w, hw, heq⟩ | ⟨-, ⟨d, -, heq⟩ | ⟨-, heq⟩⟩⟩ <;> rw [heq]
  · exact freeTicket_vacates s i
  · obtain ⟨v, hv, -, hvw⟩ := ticket_of_waitingTicket (waitingTicket_of_mergeTarget hw)
    rw [mergeInto_eq hu hv]
    have hmerged := setTicket_undisturbed (u := mergedTicket u v (s.olderThan i w)) (idle_of_waits hv hvw) hvw
    have hfreed := freeTicket_vacates ((s.setTicket w (mergedTicket u v (s.olderThan i w))).setOrder
      (mergedOrder s.pool.order i w (s.olderThan i w))) i
    exact ⟨fun j hj => (hmerged.slot j).trans (hfreed.others j hj), hfreed.idle⟩
  · exact (setTicket_vacates s i rfl).trans (setDeferral_undisturbed ..)
  · exact setTicket_vacates s i rfl

/-- A ticket that lapses is abandoned or returned (R81, R82). -/
theorem lapseSingle_vacates (s : State) (i : SlotId) (u : Ticket) : Vacates s (s.lapseSingle i u) i := by
  by_cases hlimit : u.retryLimit.val ≤ u.lapses + 1
  · rw [lapseSingle_of_limit hlimit]
    exact (freeTicket_vacates s i).trans (appendFault_undisturbed _ _)
  · rw [lapseSingle_of_below (not_le.1 hlimit)]
    have hreturned := returnTicket_vacates (s := s.setTicket i { u with lapses := u.lapses + 1 })
      (u := { u with lapses := u.lapses + 1 }) (by rw [State.setTicket_ticketAt, if_pos rfl])
    exact ⟨fun j hj => (setTicket_undisturbedAt s _ hj).trans (hreturned.others j hj), hreturned.idle⟩

/-- The round in slot i goes on from s to t without host h. -/
structure GoesOn (s t : State) (h : Port) (i : SlotId) (u v : Ticket) : Prop where
  before : s.ticketAt i = some u
  after : t.slotAt i = { s.slotAt i with ticket := some v }
  source : v.source = u.source
  level : v.level = u.level
  inRound : v.inRound = true
  owed : HostSet.has v.owed h = false
  workedBy (g : Port) : v.workedBy g = (u.workedBy g && decide (g ≠ h))

/-- From s to t host h lets go of the ticket in slot i: the slot is idle, if no other host worked on the ticket, or
the ticket goes on with the other hosts that did. No other ticket in service is touched. -/
structure LetsGo (s t : State) (h : Port) (i : SlotId) : Prop where
  others (j : SlotId) : j ≠ i → UndisturbedAt s t j
  slot : (t.Idle i ∧ ∀ u ∈ s.ticketAt i, ∀ g : Port, u.workedBy g = true → g = h) ∨ ∃ u v, GoesOn s t h i u v

theorem Vacates.letsGo {s t : State} {h : Port} {i : SlotId} (hv : Vacates s t i)
    (honly : ∀ u ∈ s.ticketAt i, ∀ g : Port, u.workedBy g = true → g = h) : LetsGo s t h i :=
  ⟨hv.others, .inl ⟨hv.idle, honly⟩⟩

/-- A SPREAD ticket does not wait. -/
theorem waits_eq_false_of_inRound {u : Ticket} (h : u.inRound = true) : u.waits = false := by
  unfold Ticket.inRound at h
  unfold Ticket.waits
  cases hstanding : u.standing <;> simp_all

/-- What disturbs nothing may follow. -/
theorem LetsGo.trans {s t u : State} {h : Port} {i : SlotId} (h1 : LetsGo s t h i) (h2 : Undisturbed t u) :
    LetsGo s u h i where
  others j hj := (h1.others j hj).trans (h2.slot j)
  slot := by
    rcases h1.slot with ⟨hidle, honly⟩ | ⟨x, v, hgoes⟩
    · exact .inl ⟨(h2.slot i).idle hidle, honly⟩
    · have hv : t.ticketAt i = some v := by rw [State.ticketAt, hgoes.after]
      have hsame := (h2.slot i).slotAt hv (waits_eq_false_of_inRound hgoes.inRound)
      exact .inr ⟨x, v, { hgoes with after := hsame.trans hgoes.after }⟩

theorem worker_of_held {u : Ticket} {h g : Port} (hu : u.standing = .held h) (hw : u.workedBy g = true) : g = h := by
  rw [Ticket.workedBy, hu] at hw
  exact (beq_iff_eq.1 hw).symm

theorem workedBy_of_spread {u : Ticket} {o c : HostSet} {x : Option Time} (hu : u.standing = .spread o c x)
    (g : Port) : u.workedBy g = HostSet.has c g := by
  rw [Ticket.workedBy, hu]

/-- Only its holder works on a HELD ticket. -/
theorem onlyWorker_of_held {s : State} {h : Port} {i : SlotId} {u : Ticket} (hu : s.ticketAt i = some u)
    (hheld : u.standing = .held h) : ∀ v ∈ s.ticketAt i, ∀ g : Port, v.workedBy g = true → g = h := fun v hv g hg => by
  rw [Option.mem_unique hv hu] at hg
  exact worker_of_held hheld hg

/-- A host that works on a SPREAD ticket is owed it (R23). -/
theorem owed_of_workedBy {u : Ticket} (hlaw : u.Law) (hround : u.inRound = true) {g : Port}
    (hg : u.workedBy g = true) : HostSet.has u.owed g = true := by
  obtain ⟨-, -, -, -, -, -, -, -, hwithin, -⟩ := hlaw
  refine and_not_eq_zero_iff.1 hwithin g ?_
  cases hstanding : u.standing <;> simp_all [Ticket.inRound, Ticket.workedBy, Ticket.claimed]

/-- The leaving of a round lets go of its ticket (R70). -/
theorem leaveRound_letsGo {s : State} (h : Port) {i : SlotId} {u : Ticket} (hlaw : u.Law)
    (hu : s.ticketAt i = some u) (hround : u.inRound = true) : LetsGo s (s.leaveRound h i) h i := by
  rcases leaveRound_cases s h i with ⟨hno, -⟩ | ⟨v, o, c, x, hv, hspread, hcase⟩
  · have := hno u hu
    rw [hround] at this
    cases this
  obtain rfl := Option.mem_unique hu hv
  rcases hcase with ⟨hnone, heq⟩ | ⟨hne, heq⟩ <;> rw [heq]
  · refine (settle_vacates s i _).letsGo fun w hw g hg => ?_
    rw [Option.mem_unique hw hu] at hg
    have howed := owed_of_workedBy hlaw hround hg
    rw [Ticket.owed, hspread] at howed
    by_contra hne
    have hgone : HostSet.has (HostSet.without o h) g = false := by rw [hnone, has_zero]
    simp [has_without, show HostSet.has o g = true from howed, hne] at hgone
  · refine ⟨fun j hj => setTicket_undisturbedAt s _ hj, .inr ⟨u,
      { u with standing := .spread (HostSet.without o h) (HostSet.without c h) x }, hu, ?_, rfl, rfl, rfl,
      ?_, fun g => ?_⟩⟩
    · rw [State.setTicket_slotAt, if_pos rfl]
    · change HostSet.has (HostSet.without o h) h = false
      simp [has_without]
    · rw [workedBy_of_spread hspread, Ticket.workedBy]
      simp [has_without]

end Sys2Proof.Machine
end

section
/-! SUPPORT. The work of a host: its ACTIVE entries and the tickets it works on, over every change of either (R63). -/

namespace Sys2Proof.Machine

/-! ## The work of a host -/

/-- The ACTIVE entries of host h, top first. -/
def State.work (s : State) (h : Port) : List Entry := (s.port h).stack.filter fun e => e.state == .active

theorem mem_work {s : State} {h : Port} {e : Entry} : e ∈ s.work h ↔ e ∈ (s.port h).stack ∧ e.state = .active := by
  simp [State.work]

/-- The number of entries of a list with a handle. -/
def naming (es : List Entry) (hd : Handle) : Nat := es.countP fun e => e.handle == hd

theorem activeNaming_eq (s : State) (h : Port) (hd : Handle) : s.activeNaming h hd = naming (s.work h) hd := by
  rw [naming, State.work, List.countP_filter, State.activeNaming]
  exact List.countP_congr fun e _ => by simp [and_comm]

/-- The entry names a live ticket that its host works on, with its source and level (R63). -/
def State.Serves (s : State) (h : Port) (e : Entry) : Prop :=
  ∃ u ∈ s.named e.handle, u.source = e.source ∧ u.level = e.level ∧ u.workedBy h = true

/-- The law of R63 in terms of the work of the hosts. -/
theorem holdingLaw_iff {s : State} :
    s.HoldingLaw ↔ (∀ h : Port, ∀ e ∈ s.work h, s.Serves h e)
      ∧ ∀ i : SlotId, ∀ u ∈ s.ticketAt i, ∀ h : Port, u.workedBy h = true → naming (s.work h) (s.handleOf i) = 1 := by
  unfold State.HoldingLaw
  simp only [activeNaming_eq, mem_work, and_imp]
  rfl

/-- A ticket that a host works on does not wait. -/
theorem waits_eq_false_of_workedBy {u : Ticket} {h : Port} (hw : u.workedBy h = true) : u.waits = false := by
  unfold Ticket.waits
  cases hstanding : u.standing <;> simp_all [Ticket.workedBy]

/-- A handle names the ticket of its slot while the generation is that of the slot (R22). -/
theorem named_iff {s : State} {hd : Handle} {u : Ticket} :
    s.named hd = some u ↔ s.ticketAt hd.slot = some u ∧ hd = s.handleOf hd.slot := by
  obtain ⟨slot, generation⟩ := hd
  unfold State.named State.handleOf
  by_cases hg : (s.slotAt slot).generation = generation <;> simp [hg, eq_comm (a := generation)]

theorem handleOf_congr {s t : State} {i : SlotId} (h : (t.slotAt i).generation = (s.slotAt i).generation) :
    t.handleOf i = s.handleOf i := by
  rw [State.handleOf, State.handleOf, h]

/-- An entry serves on where its slot stays. -/
theorem serves_congr {s t : State} {h : Port} {e : Entry} (hslot : t.slotAt e.handle.slot = s.slotAt e.handle.slot)
    (he : s.Serves h e) : t.Serves h e := by
  obtain ⟨u, hu, hrest⟩ := he
  refine ⟨u, ?_, hrest⟩
  rwa [State.named, State.ticketAt, hslot, ← State.ticketAt]

/-- The law stands where the work of every host stays and no ticket in service is touched. -/
theorem holdingLaw_of_undisturbed {s t : State} (hwork : ∀ h, t.work h = s.work h) (hslots : Undisturbed s t)
    (hs : s.HoldingLaw) : t.HoldingLaw := by
  obtain ⟨hserves, hone⟩ := holdingLaw_iff.1 hs
  refine holdingLaw_iff.2 ⟨fun h e he => ?_, fun i u hu h hw => ?_⟩ <;> rw [hwork] at *
  · have hserve := hserves h e he
    obtain ⟨u, hu, -, -, hw⟩ := id hserve
    exact serves_congr ((hslots.slot _).slotAt (named_iff.1 hu).1 (waits_eq_false_of_workedBy hw)) hserve
  · have hslot := (hslots.slot i).slotAt_back hu (waits_eq_false_of_workedBy hw)
    rw [State.ticketAt, hslot] at hu
    rw [handleOf_congr (congrArg Slot.generation hslot)]
    exact hone i u hu h hw

/-- The law stands where the tickets change in what it does not read. -/
theorem holdingLaw_congr_tickets {s t : State} (hwork : ∀ h, t.work h = s.work h)
    (hgeneration : ∀ i, (t.slotAt i).generation = (s.slotAt i).generation)
    (hticket : ∀ i, ∀ v, t.ticketAt i = some v → ∃ u, s.ticketAt i = some u ∧ v.workedBy = u.workedBy)
    (hback : ∀ i, ∀ u, s.ticketAt i = some u →
      ∃ v, t.ticketAt i = some v ∧ v.source = u.source ∧ v.level = u.level ∧ v.workedBy = u.workedBy)
    (hs : s.HoldingLaw) : t.HoldingLaw := by
  obtain ⟨hserves, hone⟩ := holdingLaw_iff.1 hs
  refine holdingLaw_iff.2 ⟨fun h e he => ?_, fun i v hv h hw => ?_⟩ <;> rw [hwork] at *
  · obtain ⟨u, hu, hsource, hlevel, hw⟩ := hserves h e he
    obtain ⟨hslot, hhandle⟩ := named_iff.1 hu
    obtain ⟨v, hv, hvs, hvl, hvw⟩ := hback _ u hslot
    exact ⟨v, named_iff.2 ⟨hv, by rwa [handleOf_congr (hgeneration _)]⟩, hvs.trans hsource, hvl.trans hlevel,
      by rw [hvw, hw]⟩
  · obtain ⟨u, hu, hvw⟩ := hticket i v hv
    rw [handleOf_congr (hgeneration i)]
    exact hone i u hu h (by rw [← hvw, hw])

/-! ## A host lets go -/

/-- The law stands after host h has let go of a ticket, if none of its ACTIVE entries names the slot any more. -/
theorem holdingLaw_of_letsGo {s t : State} {h : Port} {i : SlotId} (hgo : LetsGo s t h i)
    (hother : ∀ g, g ≠ h → t.work g = s.work g)
    (hkept : ∀ e ∈ t.work h, e ∈ s.work h ∧ e.handle.slot ≠ i)
    (hcount : ∀ hd : Handle, hd.slot ≠ i → naming (t.work h) hd = naming (s.work h) hd)
    (hs : s.HoldingLaw) : t.HoldingLaw := by
  obtain ⟨hserves, hone⟩ := holdingLaw_iff.1 hs
  refine holdingLaw_iff.2 ⟨fun g e he => ?_, fun j v hv g hw => ?_⟩
  · have hmem : e ∈ s.work g ∧ (g = h → e.handle.slot ≠ i) := by
      by_cases hg : g = h
      · subst hg
        exact ⟨(hkept e he).1, fun _ => (hkept e he).2⟩
      · exact ⟨hother g hg ▸ he, fun h => absurd h hg⟩
    have hserve := hserves g e hmem.1
    obtain ⟨u, hu, hsource, hlevel, hw⟩ := id hserve
    obtain ⟨hslot, hhandle⟩ := named_iff.1 hu
    by_cases hi : e.handle.slot = i
    · have hg : g ≠ h := fun hg => hmem.2 hg hi
      rcases hgo.slot with ⟨-, honly⟩ | ⟨x, v, hgoes⟩
      · exact absurd (honly u (hi ▸ hslot) g hw) hg
      · obtain rfl := Option.mem_unique (hi ▸ hslot) hgoes.before
        refine ⟨v, named_iff.2 ⟨?_, ?_⟩, hgoes.source.trans hsource, hgoes.level.trans hlevel, ?_⟩
        · rw [hi, State.ticketAt, hgoes.after]
        · rw [hhandle, hi]
          exact (handleOf_congr (by rw [hgoes.after])).symm
        · rw [hgoes.workedBy, hw]
          simp [hg]
    · exact serves_congr ((hgo.others _ hi).slotAt hslot (waits_eq_false_of_workedBy hw)) hserve
  · have hnaming (hd : Handle) (hne : g = h → hd.slot ≠ i) : naming (t.work g) hd = naming (s.work g) hd := by
      by_cases hg : g = h
      · subst hg
        exact hcount hd (hne rfl)
      · rw [hother g hg]
    by_cases hj : j = i
    · subst hj
      rcases hgo.slot with ⟨hidle, -⟩ | ⟨x, w, hgoes⟩
      · have := hidle v hv
        rw [waits_eq_false_of_workedBy hw] at this
        cases this
      · rw [State.ticketAt, hgoes.after] at hv
        obtain rfl := Option.some.inj hv
        rw [hgoes.workedBy, Bool.and_eq_true, decide_eq_true_iff] at hw
        rw [hnaming _ fun hg => absurd hg hw.2, handleOf_congr (s := s) (by rw [hgoes.after])]
        exact hone j x hgoes.before g hw.1
    · have hslot := (hgo.others j hj).slotAt_back hv (waits_eq_false_of_workedBy hw)
      rw [State.ticketAt, hslot] at hv
      rw [hnaming _ fun _ => hj, handleOf_congr (congrArg Slot.generation hslot)]
      exact hone j v hv g hw

/-- An entry that is taken off the work of a host is the only one there that names its slot. -/
theorem slot_ne_of_taken {s : State} {h : Port} {e : Entry} {rest : List Entry} (hs : s.HoldingLaw)
    (hwork : (s.work h).Perm (e :: rest)) : ∀ x ∈ rest, x.handle.slot ≠ e.handle.slot := by
  obtain ⟨hserves, hone⟩ := holdingLaw_iff.1 hs
  intro x hx hslot
  obtain ⟨u, hu, -, -, hw⟩ := hserves h e (hwork.mem_iff.2 (by simp))
  obtain ⟨v, hv, -, -, -⟩ := hserves h x (hwork.mem_iff.2 (by simp [hx]))
  obtain ⟨huslot, hehandle⟩ := named_iff.1 hu
  obtain ⟨-, hxhandle⟩ := named_iff.1 hv
  have hhandle : x.handle = e.handle := by rw [hxhandle, hslot, ← hehandle]
  have hcount := hone _ u huslot h hw
  rw [← hehandle, naming, hwork.countP_eq, List.countP_cons_of_pos (by simp)] at hcount
  have hpos : 0 < rest.countP fun y => y.handle == e.handle := List.countP_pos_iff.2 ⟨x, hx, by simp [hhandle]⟩
  omega

/-- The law stands after an ACTIVE entry is taken off, or lapses, and its host lets go of its ticket. -/
theorem holdingLaw_of_taken {s t : State} {h : Port} {e : Entry} (hwork : (s.work h).Perm (e :: t.work h))
    (hgo : LetsGo s t h e.handle.slot) (hother : ∀ g, g ≠ h → t.work g = s.work g) (hs : s.HoldingLaw) :
    t.HoldingLaw := by
  refine holdingLaw_of_letsGo hgo hother (fun x hx => ⟨hwork.mem_iff.2 (by simp [hx]), slot_ne_of_taken hs hwork x hx⟩)
    (fun hd hne => ?_) hs
  rw [naming, naming, hwork.countP_eq, List.countP_cons_of_neg]
  simpa using fun heq : e.handle = hd => hne (heq ▸ rfl)

/-- The law stands after a host lets go of a ticket that it does not work on. -/
theorem holdingLaw_of_unclaimed {s t : State} {h : Port} {i : SlotId} (hwork : ∀ g, t.work g = s.work g)
    (hgo : LetsGo s t h i) (hidle : ∀ u ∈ s.ticketAt i, u.workedBy h = false) (hs : s.HoldingLaw) : t.HoldingLaw := by
  refine holdingLaw_of_letsGo hgo (fun g _ => hwork g) (fun e he => ?_) (fun _ _ => by rw [hwork]) hs
  rw [hwork] at he
  refine ⟨he, ?_⟩
  rintro rfl
  obtain ⟨u, hu, -, -, hw⟩ := (holdingLaw_iff.1 hs).1 h e he
  rw [hidle u (named_iff.1 hu).1] at hw
  cases hw

/-! ## A claim -/

theorem setStack_work (s : State) (h g : Port) (es : List Entry) :
    (s.setStack h es).work g = if g = h then es.filter fun e => e.state == .active else s.work g := by
  unfold State.work
  rw [State.setStack_port]
  split <;> rfl

/-- The ticket after host h has claimed it (R51 to R53). -/
def State.afterClaim (s : State) (h : Port) (u : Ticket) : Ticket := { u with standing := s.claimStanding h u }

/-- A host works on the ticket that it has claimed, beside those that did before (R51 to R53). -/
theorem workedBy_afterClaim {s : State} {h : Port} {u : Ticket} (hoffered : u.waits = true ∨ u.inRound = true)
    (g : Port) : (s.afterClaim h u).workedBy g = (u.workedBy g || decide (g = h)) := by
  unfold State.afterClaim State.claimStanding Ticket.workedBy
  cases hstanding : u.standing with
  | waiting => cases u.policy <;> simp [Bool.beq_eq_decide_eq, eq_comm]
  | held x => simp [Ticket.waits, Ticket.inRound, hstanding] at hoffered
  | spread o c x => simp

section
variable (s : State) (h : Port) (i : SlotId) (u : Ticket)

theorem claimTicket_slotAt (j : SlotId) : (s.claimTicket h i u).slotAt j =
    if j = i then { s.slotAt i with ticket := some (s.afterClaim h u) } else s.slotAt j :=
  State.setTicket_slotAt s i j _

theorem claimTicket_ticketAt (j : SlotId) : (s.claimTicket h i u).ticketAt j =
    if j = i then some (s.afterClaim h u) else s.ticketAt j := State.setTicket_ticketAt s i j _

theorem claimTicket_handleOf (j : SlotId) : (s.claimTicket h i u).handleOf j = s.handleOf j := by
  refine handleOf_congr ?_
  rw [claimTicket_slotAt]
  split
  next hj => rw [hj]
  next => rfl

theorem claimTicket_work (g : Port) :
    (s.claimTicket h i u).work g = if g = h then s.claimEntry i u :: s.work h else s.work g := by
  rw [State.claimTicket, setStack_work]
  split
  · exact List.filter_cons_of_pos rfl
  · rfl

end

/-- What makes a ticket claimable: it waits or is SPREAD, and its host does not work on it yet (R40). -/
theorem claimable_of_entitled {s : State} {h : Port} {u : Ticket} (he : s.entitled h u = true) :
    (u.waits = true ∨ u.inRound = true) ∧ u.workedBy h = false := by
  refine ⟨waits_or_inRound_of_entitled he, ?_⟩
  unfold State.entitled at he
  unfold Ticket.workedBy
  cases hstanding : u.standing <;> simp_all

section
variable {s : State} {h : Port} {i : SlotId} {u : Ticket} (hu : s.ticketAt i = some u) (he : s.entitled h u = true)
include hu he

/-- The entries of every host serve on after a claim. -/
theorem claimTicket_serves {g : Port} {e : Entry} (hserve : s.Serves g e) : (s.claimTicket h i u).Serves g e := by
  obtain ⟨x, hx, hsource, hlevel, hw⟩ := hserve
  obtain ⟨hxslot, hxhandle⟩ := named_iff.1 hx
  rw [← claimTicket_handleOf s h i u] at hxhandle
  by_cases hj : e.handle.slot = i
  · obtain rfl := Option.mem_unique (hj ▸ hxslot) hu
    refine ⟨s.afterClaim h x, named_iff.2 ⟨by rw [claimTicket_ticketAt, if_pos hj], hxhandle⟩, hsource, hlevel, ?_⟩
    rw [workedBy_afterClaim (claimable_of_entitled he).1, hw, Bool.true_or]
  · exact ⟨x, named_iff.2 ⟨by rw [claimTicket_ticketAt, if_neg hj]; exact hxslot, hxhandle⟩, hsource, hlevel, hw⟩

/-- Before a claim its host has no ACTIVE entry for the ticket. -/
theorem naming_before_claim (hs : s.HoldingLaw) : naming (s.work h) (s.handleOf i) = 0 :=
  List.countP_eq_zero.2 fun e hmem heq => by
    obtain ⟨x, hx, -, -, hw⟩ := (holdingLaw_iff.1 hs).1 h e hmem
    rw [beq_iff_eq.1 heq] at hx
    rw [Option.mem_unique (named_iff.1 hx).1 hu, (claimable_of_entitled he).2] at hw
    cases hw

/-- A claim pushes the one entry through which its host works on the ticket (R54, R63). -/
theorem claimTicket_holdingLaw (hs : s.HoldingLaw) : (s.claimTicket h i u).HoldingLaw := by
  have hworked := workedBy_afterClaim (s := s) (h := h) (claimable_of_entitled he).1
  obtain ⟨hserves, hone⟩ := holdingLaw_iff.1 hs
  refine holdingLaw_iff.2 ⟨fun g e hmem => ?_, fun j v hv g hw => ?_⟩
  · rw [claimTicket_work] at hmem
    split at hmem
    next hg =>
      subst hg
      rcases List.mem_cons.1 hmem with rfl | hmem
      · exact ⟨s.afterClaim g u, named_iff.2 ⟨(claimTicket_ticketAt s g i u i).trans (if_pos rfl),
          (claimTicket_handleOf s g i u i).symm⟩, rfl, rfl, by rw [hworked]; simp⟩
      · exact claimTicket_serves hu he (hserves g e hmem)
    next => exact claimTicket_serves hu he (hserves g e hmem)
  · rw [claimTicket_ticketAt] at hv
    rw [claimTicket_handleOf, claimTicket_work]
    by_cases hj : j = i
    · subst hj
      rw [if_pos rfl] at hv
      obtain rfl := Option.some.inj hv
      split
      next hg => rw [naming, List.countP_cons_of_pos (by simp [State.claimEntry]), ← naming, naming_before_claim hu he hs]
      next hg =>
        rw [hworked, decide_eq_false hg, Bool.or_false] at hw
        exact hone j u hu g hw
    · rw [if_neg hj] at hv
      have hcount := hone j v hv g hw
      split
      next hg =>
        subst hg
        rw [naming, List.countP_cons_of_neg, ← naming, hcount]
        simpa [State.claimEntry, State.handleOf] using fun h => absurd h.symm hj
      next => exact hcount

end

end Sys2Proof.Machine
end

section
/-! SUPPORT. The laws of the pool and the work of the hosts together, over the events and the departures. -/

namespace Sys2Proof.Machine

/-- The laws of the pool, and the law that ties it to the work of the hosts. -/
structure State.Core (s : State) : Prop where
  pool : s.PoolLaws
  holding : s.HoldingLaw

/-! ## Changes that touch no ticket in service -/

theorem core_congr {s t : State} (hpool : t.pool = s.pool) (hattached : ∀ g, t.attached g = s.attached g)
    (hsources : t.sources = s.sources) (hlevel : t.faultLevel = s.faultLevel)
    (hrecords : t.faults.records = [] → s.faults.records = []) (hwork : ∀ h, t.work h = s.work h) (hs : s.Core) :
    t.Core :=
  ⟨poolLaws_keptByPool.congr s hpool hattached hsources hlevel hrecords hs.pool,
    holdingLaw_of_undisturbed hwork (undisturbed_of_pool hpool) hs.holding⟩

theorem work_of_ports {s t : State} (h : t.ports = s.ports) (g : Port) : t.work g = s.work g := by
  rw [State.work, State.port, h]
  rfl

/-- A change of the pool that keeps its laws and touches no ticket in service keeps both. -/
theorem State.Core.undisturbed {s t : State} (hs : s.Core) (hpool : s.PoolLaws → t.PoolLaws)
    (hports : t.ports = s.ports) (hslots : Undisturbed s t) : t.Core :=
  ⟨hpool hs.pool, holdingLaw_of_undisturbed (work_of_ports hports) hslots hs.holding⟩

theorem State.Core.appendFault {s : State} (hs : s.Core) (r : FaultRecord) : (s.appendFault r).Core :=
  hs.undisturbed (poolLaws_keptByPool.appendFault s r) (appendFault_onlyPoolFaults s r).ports (appendFault_undisturbed s r)

/-- A ticket rewritten with the same source, level and workers leaves the work of the hosts in order. -/
theorem setTicket_holdingLaw {s : State} {i : SlotId} {u v : Ticket} (hu : s.ticketAt i = some u)
    (hsource : v.source = u.source) (hlevel : v.level = u.level) (hworked : v.workedBy = u.workedBy)
    (hs : s.HoldingLaw) : (s.setTicket i v).HoldingLaw := by
  refine holdingLaw_congr_tickets (s := s) (fun _ => rfl) (fun j => ?_) (fun j w hw => ?_) (fun j w hw => ?_) hs
  · rw [State.setTicket_slotAt]
    split
    next hj => rw [hj]
    next => rfl
  · rw [State.setTicket_ticketAt] at hw
    split at hw
    next hj =>
      obtain rfl := Option.some.inj hw
      exact ⟨u, hj ▸ hu, hworked⟩
    next => exact ⟨w, hw, rfl⟩
  · rw [State.setTicket_ticketAt]
    split
    next hj =>
      obtain rfl := Option.mem_unique (hj ▸ hw) hu
      exact ⟨v, rfl, hsource, hlevel, hworked⟩
    next => exact ⟨w, hw, rfl, rfl, rfl⟩

theorem State.Core.endReservation {s : State} (hs : s.Core) (i : SlotId) : (s.endReservation i).Core := by
  refine ⟨poolLaws_keptByPool.endReservation s i hs.pool, ?_⟩
  unfold State.endReservation
  split
  next => exact hs.holding
  next u hu => exact setTicket_holdingLaw hu rfl rfl rfl hs.holding

theorem endReservationsOf_holdingLaw {s : State} (h : Port) (hs : s.HoldingLaw) :
    (s.endReservationsOf h).HoldingLaw := by
  refine holdingLaw_congr_tickets (s := s) (work_of_ports (endReservationsOf_onlyPool s h).ports)
    (fun i => by rw [endReservationsOf_slotAt]) (fun i v hv => ?_) (fun i u hu => ?_) hs
  · rw [endReservationsOf_ticketAt, Option.map_eq_some_iff] at hv
    obtain ⟨u, hu, rfl⟩ := hv
    exact ⟨u, hu, rfl⟩
  · rw [endReservationsOf_ticketAt, hu]
    exact ⟨_, rfl, rfl, rfl, rfl⟩

/-! ## Hosts that let go -/

/-- Letting go reads of the state before it the slots alone. -/
theorem LetsGo.of_pool {s s' t : State} {h : Port} {i : SlotId} (hp : s'.pool = s.pool) (hgo : LetsGo s' t h i) :
    LetsGo s t h i := by
  have hslot (j : SlotId) : s'.slotAt j = s.slotAt j := by rw [State.slotAt, hp]; rfl
  have hticket (j : SlotId) : s'.ticketAt j = s.ticketAt j := by rw [State.ticketAt, hslot]; rfl
  refine ⟨fun j hj => ?_, hgo.slot.imp (fun hidle => ⟨hidle.1, hticket i ▸ hidle.2⟩) ?_⟩
  · have := hgo.others j hj
    rwa [UndisturbedAt, State.Idle, hslot, hticket] at this
  · rintro ⟨u, v, hgoes⟩
    exact ⟨u, v, { hgoes with before := hticket i ▸ hgoes.before, after := hslot i ▸ hgoes.after }⟩

/-- A ticket that a host works on is HELD by that host, or SPREAD. -/
theorem held_or_spread_of_workedBy {u : Ticket} {h : Port} (hw : u.workedBy h = true) :
    u.standing = .held h ∨ u.inRound = true := by
  unfold Ticket.inRound
  unfold Ticket.workedBy at hw
  cases hstanding : u.standing <;> simp_all

section
variable {s : State} {h : Port} {u : Ticket}

/-- The retirement of an ACTIVE entry lets go of its ticket (R69, R70). -/
theorem retireTicket_letsGo {hd : Handle} (hn : s.named hd = some u) (hlaw : u.Law) (hw : u.workedBy h = true) :
    LetsGo s (s.retireTicket h hd) h hd.slot := by
  have hu := (named_iff.1 hn).1
  rw [State.retireTicket, hn]
  rcases held_or_spread_of_workedBy hw with hheld | hround
  · simp only [hheld]
    exact (settle_vacates s hd.slot u.source).letsGo (onlyWorker_of_held hu hheld)
  · have hleaves := leaveRound_letsGo h hlaw hu hround
    unfold Ticket.inRound at hround
    split at hround
    next o c x hspread => simpa only [hspread] using hleaves
    next => cases hround

/-- The lapse of an ACTIVE entry lets go of its ticket (R80). -/
theorem lapseTicket_letsGo {hd : Handle} (hn : s.named hd = some u) (hlaw : u.Law) (hw : u.workedBy h = true) :
    LetsGo s (s.lapseTicket h hd) h hd.slot := by
  have hu := (named_iff.1 hn).1
  rw [State.lapseTicket, hn]
  rcases held_or_spread_of_workedBy hw with hheld | hround
  · simp only [hheld]
    exact (lapseSingle_vacates s hd.slot u).letsGo (onlyWorker_of_held hu hheld)
  · have hleaves := (leaveRound_letsGo h hlaw hu hround).trans
      (appendFault_undisturbed _ (.shareLapsed u.source (s.handleOf hd.slot) h s.timebase))
    unfold Ticket.inRound at hround
    split at hround
    next o c x hspread => simpa only [hspread, State.lapseShare] using hleaves
    next => cases hround

/-- The release of an ACTIVE entry lets go of its ticket (R89). -/
theorem releaseEntry_letsGo {e : Entry} (he : e.state = .active) (hn : s.named e.handle = some u) (hlaw : u.Law)
    (hw : u.workedBy h = true) : LetsGo s (s.releaseEntry h e) h e.handle.slot := by
  have hu := (named_iff.1 hn).1
  simp only [State.releaseEntry, he, hn]
  rcases held_or_spread_of_workedBy hw with hheld | hround
  · simp only [hheld]
    exact (returnTicket_vacates hu).letsGo (onlyWorker_of_held hu hheld)
  · have hleaves := leaveRound_letsGo h hlaw hu hround
    unfold Ticket.inRound at hround
    split at hround
    next o c x hspread => simpa only [hspread] using hleaves
    next => cases hround

/-- The ticket of an ACTIVE entry. -/
theorem State.Core.served (hs : s.Core) {e : Entry} (he : e ∈ s.work h) :
    ∃ u, s.named e.handle = some u ∧ u.Law ∧ u.source = e.source ∧ u.level = e.level ∧ u.workedBy h = true := by
  obtain ⟨u, hu, hsource, hlevel, hw⟩ := (holdingLaw_iff.1 hs.holding).1 h e he
  exact ⟨u, hu, hs.pool.ticket _ u (named_iff.1 hu).1, hsource, hlevel, hw⟩

end

/-- An ACTIVE entry is taken off a stack, or marked on it, and then its host lets go of its ticket. -/
theorem State.Core.taken {s t : State} {h : Port} {e : Entry} {es : List Entry} (hs : s.Core)
    (hpool : (s.setStack h es).PoolLaws → t.PoolLaws) (hports : t.ports = (s.setStack h es).ports)
    (hwork : (s.work h).Perm (e :: es.filter fun e => e.state == .active))
    (hgo : LetsGo (s.setStack h es) t h e.handle.slot) : t.Core := by
  have htwork (g : Port) : t.work g = (s.setStack h es).work g := work_of_ports hports g
  refine ⟨hpool (poolLaws_keptByPool.setStack s h es hs.pool),
    holdingLaw_of_taken (h := h) (e := e) ?_
      (LetsGo.of_pool (s := s) (s' := s.setStack h es) rfl hgo) (fun g hg => ?_) hs.holding⟩
  · rwa [htwork, setStack_work, if_pos rfl]
  · rw [htwork, setStack_work, if_neg hg]

/-- An entry at a place of a stack, marked LAPSED, is taken off the work of its host. -/
theorem work_set_lapsed {es : List Entry} {k : Nat} {e : Entry} (he : es[k]? = some e) (hactive : e.state = .active) :
    (es.filter fun e => e.state == .active).Perm
      (e :: (es.set k { e with state := .lapsed }).filter fun e => e.state == .active) := by
  induction es generalizing k with
  | nil => cases he
  | cons x es ih =>
    cases k with
    | zero =>
      obtain rfl := Option.some.inj he
      rw [List.set_cons_zero, List.filter_cons_of_pos (by simp [hactive]), List.filter_cons_of_neg (by simp)]
    | succ k =>
      have hrest := ih (List.getElem?_cons_succ ▸ he)
      rw [List.set_cons_succ]
      by_cases hx : x.state = .active
      · rw [List.filter_cons_of_pos (by simp [hx]), List.filter_cons_of_pos (by simp [hx])]
        exact (hrest.cons x).trans (.swap e x _)
      · rw [List.filter_cons_of_neg (by simpa using hx), List.filter_cons_of_neg (by simpa using hx)]
        exact hrest

theorem State.Core.lapseEntry {s : State} {h : Port} {k : Fin 4} {e : Entry} (hs : s.Core)
    (he : s.entryAt h k = some e) (hactive : e.state = .active) : (s.lapseEntry h k).Core := by
  rw [lapseEntry_of_entry he]
  obtain ⟨u, hn, hlaw, -, -, hw⟩ := hs.served (mem_work.2 ⟨List.mem_of_getElem? he, hactive⟩)
  exact hs.taken (poolLaws_keptByPool.lapseTicket _ h e.handle) (lapseTicket_onlyPoolFaults _ h e.handle).ports
    (work_set_lapsed he hactive) (lapseTicket_letsGo hn hlaw hw)

/-- The top entry, ACTIVE, is taken off the work of its host. -/
theorem work_top {s : State} {h : Port} {e : Entry} {rest : List Entry} (hstack : (s.port h).stack = e :: rest)
    (he : e.state = .active) : s.work h = e :: rest.filter fun e => e.state == .active := by
  rw [State.work, hstack, List.filter_cons_of_pos (by simp [he])]

theorem State.Core.retireTicket {s : State} {h : Port} {e : Entry} {rest : List Entry} (hs : s.Core)
    (hstack : (s.port h).stack = e :: rest) (he : e.state = .active) :
    ((s.setStack h rest).retireTicket h e.handle).Core := by
  obtain ⟨u, hn, hlaw, -, -, hw⟩ := hs.served (h := h) (mem_work.2 ⟨by simp [hstack], he⟩)
  exact hs.taken (poolLaws_keptByPool.retireTicket _ h e.handle) (retireTicket_onlyPool _ h e.handle).ports
    (.of_eq (work_top hstack he)) (retireTicket_letsGo hn hlaw hw)

/-- A LAPSED top entry is none of the work of its host. -/
theorem State.Core.popLapsed {s : State} {h : Port} {e : Entry} {rest : List Entry} (hs : s.Core)
    (hstack : (s.port h).stack = e :: rest) (he : e.state = .lapsed) : (s.setStack h rest).Core := by
  refine core_congr (s := s) rfl (setPort_attached rfl) rfl rfl id (fun g => ?_) hs
  rw [setStack_work]
  split
  next hg =>
    subst hg
    rw [State.work, hstack, List.filter_cons_of_neg (by simp [he])]
  next => rfl

theorem State.Core.collect {s : State} (hs : s.Core) (i : SlotId) : (s.collect i).Core := by
  refine ⟨poolLaws_keptByPool.collect s i hs.pool, ?_⟩
  unfold State.collect
  split
  next => exact hs.holding
  next u hu =>
    split
    next owed claimed x hspread =>
      have hrecords := foldl_undisturbed (fun t h => appendFault_undisturbed t
        (.shareLapsed u.source (s.handleOf i) h s.timebase)) (HostSet.members (owed &&& ~~~ claimed))
      have hports := OnlyPoolFaults.foldl (fun t h => appendFault_onlyPoolFaults t
        (.shareLapsed u.source (s.handleOf i) h s.timebase)) (HostSet.members (owed &&& ~~~ claimed))
      refine holdingLaw_of_undisturbed (work_of_ports (hports _).ports) (hrecords _) ?_
      split
      next hnone =>
        have hidle (g : Port) : u.workedBy g = false := by
          by_contra hw
          have howed := owed_of_workedBy (hs.pool.ticket i u hu) (by simp [Ticket.inRound, hspread])
            (by simpa using hw : u.workedBy g = true)
          rw [workedBy_of_spread hspread] at hw
          rw [Ticket.owed, hspread] at howed
          have hgone : HostSet.has (owed &&& claimed) g = false := by rw [hnone, has_zero]
          rw [has_and, Bool.and_eq_false_iff] at hgone
          exact hgone.elim (fun h => by simp [show HostSet.has owed g = true from howed] at h) fun h => hw h
        refine holdingLaw_of_unclaimed (h := 0) (work_of_ports (settle_onlyPool s i _).ports)
          ((settle_vacates s i _).letsGo fun v hv g hg => ?_) (fun v hv => ?_) hs.holding <;>
          rw [Option.mem_unique hv hu] at *
        · rw [hidle] at hg
          cases hg
        · exact hidle 0
      next =>
        exact setTicket_holdingLaw hu rfl rfl (funext fun g => (workedBy_of_spread hspread g).symm) hs.holding
    next => exact hs.holding

theorem moveTimebase_work (s : State) (g : Port) : s.moveTimebase.work g = s.work g := by
  rw [State.work, moveTimebase_port]
  rfl

theorem recompute_work (s : State) (g : Port) : s.recompute.work g = s.work g := by
  rw [State.work, recompute_port]
  rfl

/-- Both are kept by the events of an advance. -/
theorem core_events : KeptByEvents State.Core where
  move s hs := ⟨poolLaws_keptByPool.moveTimebase s hs.pool,
    holdingLaw_of_undisturbed (moveTimebase_work s) (undisturbed_of_pool rfl) hs.holding⟩
  sample s n level hs := hs.undisturbed (poolLaws_keptByPool.sampleLine s n level) (by rw [sampleLine_frame])
    (sampleLine_undisturbed s n level)
  step s n chainOrder _ hs := hs.undisturbed (poolLaws_keptByPool.stepTimer s n chainOrder) (by rw [stepTimer_frame])
    (stepTimer_undisturbed s n chainOrder)
  lapse _ _ _ _ he hactive hs := hs.lapseEntry he hactive
  collect _ i hs := hs.collect i
  endReservation _ i hs := hs.endReservation i

theorem State.Core.recompute {s : State} (hs : s.Core) : s.recompute.Core :=
  core_congr (s := s) rfl (recompute_attached s) rfl rfl id (recompute_work s) hs

/-! ## Departures -/

/-- A host with an empty stack works on no ticket. -/
theorem workedBy_eq_false_of_empty {s : State} {h : Port} (hs : s.HoldingLaw) (hempty : (s.port h).stack = [])
    {i : SlotId} {u : Ticket} (hu : s.ticketAt i = some u) : u.workedBy h = false := by
  by_contra hw
  have hone := (holdingLaw_iff.1 hs).2 i u hu h (by simpa using hw)
  rw [State.work, hempty] at hone
  cases hone

/-- The laws of the pool and of the hosts as the top entry is taken off and released (R89). -/
theorem State.Core.releaseTop {x : State} {h : Port} {e : Entry} {rest : List Entry} (hs : x.Core)
    (hstack : (x.port h).stack = e :: rest) :
    ((x.setStack h rest).releaseEntry h e).Core ∧ (((x.setStack h rest).releaseEntry h e).port h).stack = rest := by
  have hports := (releaseEntry_onlyPool (x.setStack h rest) h e).ports
  refine ⟨?_, by rw [State.port, hports, ← State.port, State.setStack_port, if_pos rfl]⟩
  cases he : e.state with
  | lapsed =>
    rw [State.releaseEntry, he]
    exact hs.popLapsed hstack he
  | active =>
    obtain ⟨u, hn, hlaw, -, -, hw⟩ := hs.served (h := h) (mem_work.2 ⟨by simp [hstack], he⟩)
    exact hs.taken (poolLaws_keptByPool.releaseEntry _ h e) hports (.of_eq (work_top hstack he))
      (releaseEntry_letsGo he hn hlaw hw)

/-- The emptying of a stack keeps both (R89). -/
theorem State.Core.releaseStack {s : State} {h : Port} {es : List Entry} (hs : s.Core)
    (hstack : (s.port h).stack = es) : (s.releaseStack h es).Core := by
  induction es generalizing s with
  | nil =>
    refine core_congr (s := s) rfl (setPort_attached rfl) rfl rfl id (fun g => ?_) hs
    rw [State.releaseStack, setStack_work]
    split
    next hg => rw [hg, State.work, hstack]
    next => rfl
  | cons e rest ih =>
    rw [State.releaseStack]
    exact ih (hs.releaseTop hstack).1 (hs.releaseTop hstack).2

/-- Host h is not owed the ticket in slot i. -/
def State.NotOwed (s : State) (h : Port) (i : SlotId) : Prop := ∀ u ∈ s.ticketAt i, HostSet.has u.owed h = false

theorem owed_eq_zero_of_not_inRound {u : Ticket} (h : u.inRound = false) : u.owed = 0 := by
  unfold Ticket.inRound at h
  unfold Ticket.owed
  cases hstanding : u.standing <;> simp_all

theorem notOwed_of_idle {s : State} (h : Port) {i : SlotId} (hidle : s.Idle i) : s.NotOwed h i := fun u hu => by
  have hround : u.inRound = false := by
    by_contra hround
    have := hidle u hu
    rw [waits_eq_false_of_inRound (by simpa using hround)] at this
    cases this
  rw [owed_eq_zero_of_not_inRound hround, has_zero]

/-- A host that does not work on a round leaves it, and both stand; it is not owed that ticket afterwards, and comes to
be owed no other (R90). -/
theorem State.Core.leaveRound {s : State} {h : Port} (hs : s.Core) (hempty : (s.port h).stack = []) (i : SlotId) :
    (s.leaveRound h i).Core ∧ (s.leaveRound h i).NotOwed h i
      ∧ ∀ j, s.NotOwed h j → (s.leaveRound h i).NotOwed h j := by
  have hpool := poolLaws_keptByPool.leaveRound s h i hs.pool
  by_cases hround : ∃ u, s.ticketAt i = some u ∧ u.inRound = true
  · obtain ⟨u, hu, hround⟩ := hround
    have hgo := leaveRound_letsGo h (hs.pool.ticket i u hu) hu hround
    have hleft : (s.leaveRound h i).NotOwed h i := by
      rcases hgo.slot with ⟨hidle, -⟩ | ⟨x, v, hgoes⟩
      · exact notOwed_of_idle h hidle
      · intro w hw
        rw [State.ticketAt, hgoes.after] at hw
        obtain rfl := Option.some.inj hw
        exact hgoes.owed
    refine ⟨⟨hpool, holdingLaw_of_unclaimed (work_of_ports (leaveRound_onlyPool s h i).ports) hgo
      (fun u hu => workedBy_eq_false_of_empty hs.holding hempty hu) hs.holding⟩, hleft, fun j hj => ?_⟩
    by_cases hji : j = i
    · exact hji ▸ hleft
    · rcases hgo.others j hji with hsame | ⟨-, hidle⟩
      · intro w hw
        rw [State.ticketAt, hsame] at hw
        exact hj w hw
      · exact notOwed_of_idle h hidle
  · have hno : ∀ u ∈ s.ticketAt i, u.inRound = false := fun u hu => by
      by_contra hin
      exact hround ⟨u, hu, by simpa using hin⟩
    have heq : s.leaveRound h i = s := by
      rcases leaveRound_cases s h i with ⟨-, heq⟩ | ⟨u, o, c, x, hu, hspread, -⟩
      · exact heq
      · have := hno u hu
        simp [Ticket.inRound, hspread] at this
    rw [heq]
    exact ⟨hs, fun u hu => by rw [owed_eq_zero_of_not_inRound (hno u hu), has_zero], fun _ => id⟩

/-- After a host has left a list of rounds, both stand, and it is owed no ticket but those it was owed in other
slots. -/
theorem State.Core.leaveRounds {s : State} {h : Port} (hs : s.Core) (hempty : (s.port h).stack = [])
    (l : List SlotId) :
    (l.foldl (fun st i => st.leaveRound h i) s).Core
      ∧ ∀ i, i ∈ l ∨ s.NotOwed h i → (l.foldl (fun st i => st.leaveRound h i) s).NotOwed h i := by
  induction l generalizing s with
  | nil => exact ⟨hs, fun i hi => hi.resolve_left (by simp)⟩
  | cons j l ih =>
    obtain ⟨hcore, hleft, hkept⟩ := hs.leaveRound hempty j
    obtain ⟨hrest, hnone⟩ := ih hcore (by rw [(leaveRound_onlyPool s h j).port]; exact hempty)
    refine ⟨hrest, fun i hi => hnone i ?_⟩
    rcases hi with hi | hi
    · rcases List.mem_cons.1 hi with rfl | hi
      · exact .inr hleft
      · exact .inl hi
    · exact .inr (hkept i hi)

/-- A host that is owed a ticket and does not work on it has not claimed it. -/
theorem owesUnclaimed_of_owed {s : State} {h : Port} {i : SlotId} {u : Ticket} (hu : s.ticketAt i = some u)
    (howed : HostSet.has u.owed h = true) (hfresh : u.workedBy h = false) : s.owesUnclaimed h i = true := by
  rw [State.owesUnclaimed, hu]
  unfold Ticket.owed at howed
  unfold Ticket.workedBy at hfresh
  cases hstanding : u.standing with
  | spread o c x => simp_all
  | waiting | held g =>
    rw [hstanding] at howed
    exact absurd (howed.symm.trans (has_zero h)) (by decide)

/-- A release keeps both, and leaves its host owed no ticket (R91). -/
theorem State.Core.release {s : State} (hs : s.Core) (h : Port) :
    (s.release h).Core ∧ ∀ i, (s.release h).NotOwed h i := by
  have hstack := hs.releaseStack (h := h) rfl
  have hempty : ((s.releaseStack h (s.port h).stack).port h).stack = [] := by
    rw [releaseStack_frame]
    exact congrArg HostPort.stack (look_place_same ..)
  obtain ⟨hdropped, hnone⟩ := hstack.leaveRounds hempty
    ((s.releaseStack h (s.port h).stack).pool.order.filter ((s.releaseStack h (s.port h).stack).owesUnclaimed h))
  have hall (i : SlotId) : ((s.releaseStack h (s.port h).stack).dropUnclaimed h).NotOwed h i := by
    refine hnone i ?_
    by_cases howed : (s.releaseStack h (s.port h).stack).NotOwed h i
    · exact .inr howed
    · refine .inl (List.mem_filter.2 ?_)
      unfold State.NotOwed at howed
      push Not at howed
      obtain ⟨u, hu, howed⟩ := howed
      refine ⟨(hstack.pool.sound.1.2 i).2 (by rw [Option.mem_def.1 hu]; rfl), ?_⟩
      have hfresh := workedBy_eq_false_of_empty hstack.holding hempty hu
      exact owesUnclaimed_of_owed hu (by simpa using howed) hfresh
  unfold State.release
  dsimp only
  split
  · exact ⟨hdropped, hall⟩
  · refine ⟨hdropped.appendFault _, fun i => ?_⟩
    rcases (appendFault_undisturbed _ _).slot i with hsame | ⟨-, hidle⟩
    · intro u hu
      rw [State.ticketAt, hsame] at hu
      exact hall i u hu
    · exact notOwed_of_idle h hidle

end Sys2Proof.Machine
end

section
/-! SUPPORT. What the operations of the pool read: the pool itself, the timebase, the source table, the token and the
states of the ports; and those that can re-arm a source, beside it, the recognised levels of the lines and whether the
fault queue is empty. -/

namespace Sys2Proof.Machine

/-- Two states that show the operations of the pool the same, the lines and the fault queue apart. -/
structure SameView (s t : State) : Prop where
  timebase : t.timebase = s.timebase
  sources : t.sources = s.sources
  faultLevel : t.faultLevel = s.faultLevel
  token : t.token = s.token
  pool : t.pool = s.pool
  attached (g : Port) : t.attached g = s.attached g

/-- Two states with the same causes for a re-arm or a withdrawal: the recognised level of each line, and whether the fault
queue holds a record. -/
structure SameCauses (s t : State) : Prop where
  recognised (n : LineId) : (t.line n).recognised = (s.line n).recognised
  records : t.faults.records.isEmpty = s.faults.records.isEmpty

theorem SameCauses.refl (s : State) : SameCauses s s := ⟨fun _ => rfl, rfl⟩

/-- Changes of the pool alone keep the causes. -/
theorem SameCauses.of_onlyPool {s t s' t' : State} (h : SameCauses s t) (hs : OnlyPool s s') (ht : OnlyPool t t') :
    SameCauses s' t' where
  recognised n := by rw [ht.line, hs.line, h.recognised]
  records := by rw [ht.faults, hs.faults, h.records]

theorem SameView.refl (s : State) : SameView s s := ⟨rfl, rfl, rfl, rfl, rfl, fun _ => rfl⟩

/-- Changes of the pool alone that give the same pool keep the view. -/
theorem SameView.of_onlyPool {s t s' t' : State} (h : SameView s t) (hs : OnlyPool s s') (ht : OnlyPool t t')
    (hp : t'.pool = s'.pool) : SameView s' t' where
  timebase := by rw [ht.timebase, hs.timebase, h.timebase]
  sources := by rw [ht.sources, hs.sources, h.sources]
  faultLevel := by rw [ht.faultLevel, hs.faultLevel, h.faultLevel]
  token := by rw [ht.token, hs.token, h.token]
  pool := hp
  attached g := by rw [ht.attached, hs.attached, h.attached]

section
variable {s t : State} (h : SameView s t)
include h

theorem SameView.slotAt (i : SlotId) : t.slotAt i = s.slotAt i := by rw [State.slotAt, h.pool]; rfl

theorem SameView.ticketAt (i : SlotId) : t.ticketAt i = s.ticketAt i := by rw [State.ticketAt, h.slotAt]; rfl

theorem SameView.deferralOf (src : SourceId) : t.deferralOf src = s.deferralOf src := by
  rw [State.deferralOf, h.pool]; rfl

theorem SameView.named (hd : Handle) : t.named hd = s.named hd := by
  rw [State.named, h.slotAt, h.ticketAt]; rfl

theorem SameView.config (src : SourceId) : t.config src = s.config src := by
  unfold State.config State.faultRecordOf State.tokenSet
  rw [h.sources, h.faultLevel, h.token]

theorem SameView.newTicket (src : SourceId) (c : Nat) (st : Time) (p : Option (BitVec 16)) :
    t.newTicket src c st p = s.newTicket src c st p := by
  unfold State.newTicket State.reservationFor
  simp only [h.config, h.attached, h.timebase]

theorem SameView.waitingTicket (src : SourceId) : t.waitingTicket src = s.waitingTicket src := by
  unfold State.waitingTicket
  rw [h.pool]
  refine congrArg (fun p => s.pool.order.find? p) (funext fun i => ?_)
  unfold State.waitsFor
  rw [h.ticketAt]

theorem SameView.lowestFree : t.lowestFree = s.lowestFree := by
  refine congrArg (fun p => (List.finRange 64).find? p) (funext fun i => ?_)
  unfold State.isFree
  rw [h.ticketAt]

theorem SameView.liveCount (src : SourceId) : t.liveCount src = s.liveCount src := by
  refine congrArg (fun p => (List.finRange 64).countP p) (funext fun i => ?_)
  unfold State.holdsSource
  rw [h.ticketAt]

theorem SameView.arbiter : t.arbiter = s.arbiter := by
  unfold State.arbiter
  simp only [h.deferralOf, h.config]

/-! ## The single changes -/

theorem SameView.setSlot (i : SlotId) (x : Slot) : SameView (s.setSlot i x) (t.setSlot i x) :=
  h.of_onlyPool rfl rfl (by rw [State.setSlot_pool, State.setSlot_pool, h.pool])

theorem SameView.setTicket (i : SlotId) (u : Ticket) : SameView (s.setTicket i u) (t.setTicket i u) := by
  unfold State.setTicket
  rw [h.slotAt]
  exact h.setSlot i _

theorem SameView.setOrder (o : List SlotId) : SameView (s.setOrder o) (t.setOrder o) :=
  h.of_onlyPool rfl rfl (by rw [State.setOrder_pool, State.setOrder_pool, h.pool])

theorem SameView.setDeferral (src : SourceId) (d : Option Deferral) :
    SameView (s.setDeferral src d) (t.setDeferral src d) :=
  h.of_onlyPool rfl rfl (by rw [State.setDeferral_pool, State.setDeferral_pool, h.pool])

theorem SameView.createTicket (i : SlotId) (src : SourceId) (c : Nat) (st : Time) (p : Option (BitVec 16)) :
    SameView (s.createTicket i src c st p) (t.createTicket i src c st p) := by
  unfold State.createTicket
  rw [h.newTicket, h.pool]
  exact (h.setTicket i _).setOrder _

theorem SameView.clearSlot (i : SlotId) : SameView (s.clearSlot i) (t.clearSlot i) := by
  unfold State.clearSlot
  rw [h.slotAt, h.pool]
  exact (h.setSlot i _).setOrder _

/-! ## The operations -/

theorem SameView.grant (i : SlotId) : SameView (s.grant i) (t.grant i) := by
  unfold State.grant
  rw [h.arbiter]
  cases s.arbiter with
  | none => exact h
  | some src =>
    dsimp only
    rw [h.deferralOf]
    cases s.deferralOf src with
    | none => exact h
    | some d => exact (h.createTicket i src d.count d.stamp none).setDeferral src none

theorem SameView.freeTicket (i : SlotId) : SameView (s.freeTicket i) (t.freeTicket i) := by
  unfold State.freeTicket
  rw [h.ticketAt]
  cases s.ticketAt i with
  | none => exact h
  | some _ => exact (h.clearSlot i).grant i

theorem SameView.coalesce (i : SlotId) : SameView (s.coalesce i) (t.coalesce i) := by
  unfold State.coalesce
  rw [h.ticketAt]
  cases s.ticketAt i with
  | none => exact h
  | some _ => exact h.setTicket i _

theorem SameView.occurrenceCase (src : SourceId) : t.occurrenceCase src = s.occurrenceCase src := by
  unfold State.occurrenceCase
  rw [h.config, h.waitingTicket, h.deferralOf, h.lowestFree]

theorem SameView.occurrence (src : SourceId) (p : BitVec 16) :
    SameView (s.occurrence src p) (t.occurrence src p) := by
  unfold State.occurrence
  rw [h.occurrenceCase]
  cases s.occurrenceCase src with
  | discarded => exact h
  | posted =>
    dsimp only
    rw [h.lowestFree, h.timebase]
    cases s.lowestFree with
    | none => exact h
    | some i => exact h.createTicket i src 1 _ _
  | coalesced i => exact h.coalesce i
  | counted d => exact h.setDeferral src _
  | created i =>
    dsimp only
    rw [h.timebase]
    exact h.createTicket i src 1 _ _
  | deferred =>
    dsimp only
    rw [h.timebase]
    exact h.setDeferral src _

theorem SameView.withdraw (src : SourceId) : SameView (s.withdraw src) (t.withdraw src) := by
  unfold State.withdraw
  rw [h.waitingTicket]
  cases s.waitingTicket src with
  | none => exact h.setDeferral src none
  | some i => exact (h.freeTicket i).setDeferral src none

theorem SameView.mergeInto (r w : SlotId) : SameView (s.mergeInto r w) (t.mergeInto r w) := by
  unfold State.mergeInto State.olderThan
  rw [h.ticketAt, h.ticketAt, h.pool]
  cases s.ticketAt r with
  | none => exact h
  | some u =>
    cases s.ticketAt w with
    | none => exact h
    | some v => exact ((h.setTicket w _).setOrder _).freeTicket r

theorem SameView.endReservationsOf (g : Port) : SameView (s.endReservationsOf g) (t.endReservationsOf g) := by
  refine h.of_onlyPool (endReservationsOf_onlyPool s g) (endReservationsOf_onlyPool t g) ?_
  unfold State.endReservationsOf
  rw [State.setPool_pool, State.setPool_pool, h.pool]
  simp only [h.slotAt]

section
variable (hq : SameCauses s t)
include hq

theorem SameView.lineActive (src : SourceId) : t.lineActive src = s.lineActive src := by
  unfold State.lineActive
  simp only [h.config, hq.recognised]

theorem SameView.lineInactive (src : SourceId) : t.lineInactive src = s.lineInactive src := by
  unfold State.lineInactive
  simp only [h.config, hq.recognised]

theorem SameView.rearm (src : SourceId) : SameView (s.rearm src) (t.rearm src) := by
  unfold State.rearm
  rw [h.lineActive hq, h.liveCount, hq.records]
  split
  · exact h.occurrence src 0
  · exact h

theorem SameView.settle (i : SlotId) (src : SourceId) : SameView (s.settle i src) (t.settle i src) :=
  (h.freeTicket i).rearm (hq.of_onlyPool (freeTicket_onlyPool s i) (freeTicket_onlyPool t i)) src

theorem SameView.leaveRound (g : Port) (i : SlotId) : SameView (s.leaveRound g i) (t.leaveRound g i) := by
  unfold State.leaveRound
  rw [h.ticketAt]
  cases s.ticketAt i with
  | none => exact h
  | some u =>
    dsimp only
    split
    · split
      · exact h.settle hq i _
      · exact h.setTicket i _
    · exact h

theorem SameView.returnTicket (i : SlotId) : SameView (s.returnTicket i) (t.returnTicket i) := by
  unfold State.returnTicket State.conditionGone State.mergeTarget
  rw [h.ticketAt]
  cases s.ticketAt i with
  | none => exact h
  | some u =>
    dsimp only
    rw [h.lineInactive hq, hq.records, h.waitingTicket, h.deferralOf]
    split
    · exact h.freeTicket i
    · split
      · exact h.mergeInto i _
      · split
        · exact (h.setTicket i _).setDeferral _ none
        · exact h.setTicket i _

theorem SameView.releaseEntry (g : Port) (e : Entry) : SameView (s.releaseEntry g e) (t.releaseEntry g e) := by
  unfold State.releaseEntry
  split
  · exact h
  · rw [h.named]
    split
    · exact h
    · split
      · exact h.returnTicket hq _
      · exact h.leaveRound hq g _
      · exact h

end

end

end Sys2Proof.Machine
end

section
/-! SUPPORT. Every law of the part over a step. -/

namespace Sys2Proof.Machine

/-! ## An empty pool -/

/-- With no ticket and nothing deferred the laws of the pool ask for the source table alone. -/
theorem core_of_empty {s : State} (hticket : ∀ i, s.ticketAt i = none) (horder : s.pool.order = [])
    (hdeferral : s.NothingDeferred) (hstack : ∀ h, (s.port h).stack = []) (hsource : s.SourceLaw) : s.Core := by
  have hno {i : SlotId} {u : Ticket} (hu : u ∈ s.ticketAt i) : False := by rw [hticket] at hu; cases hu
  have hwork (h : Port) : s.work h = [] := by rw [State.work, hstack]; rfl
  refine ⟨⟨poolSound_of_empty hticket horder hdeferral, fun _ _ hu => (hno hu).elim, fun src d hd => ?_,
    fun _ _ _ hu => (hno hu).elim, fun _ _ _ hu => (hno hu).elim, fun src _ => ?_, fun _ _ _ _ hu => (hno hu).elim,
    fun _ => ⟨hdeferral _, fun _ _ hu => (hno hu).elim⟩, hsource⟩, holdingLaw_iff.2 ⟨fun h e he => ?_,
    fun _ _ hu => (hno hu).elim⟩⟩
  · rw [hdeferral src] at hd
    cases hd
  · refine (List.countP_eq_zero.2 fun i _ => ?_).le.trans (Nat.zero_le _)
    rw [State.holdsSource, hticket]
    exact Bool.false_ne_true
  · rw [hwork] at he
    cases he

theorem reset_sourceLaw (q : List Instr) : State.SourceLaw { State.reset with pending := q } := fun src => by
  by_cases hlt : src.val < 48
  · have hconfig : State.config { State.reset with pending := q } src = SourceRecord.reset := by
      rw [State.config, dif_pos hlt]
      exact look_replicate _ _
    rw [hconfig]
    exact ⟨(by decide : (1 : Fin 8) ≠ 0), nofun, nofun, fun _ => ⟨rfl, rfl⟩⟩
  · obtain rfl := eq_faultSource_of_not_lt hlt
    rw [config_faultSource]
    exact ⟨(by decide : (7 : Fin 8) ≠ 0), nofun, nofun, fun _ => ⟨rfl, rfl⟩⟩

theorem reset_core (q : List Instr) : State.Core { State.reset with pending := q } :=
  core_of_empty (fun i => congrArg Slot.ticket (look_replicate _ i)) rfl (fun src => look_replicate _ src)
    (fun h => congrArg HostPort.stack (look_replicate HostPort.reset h)) (reset_sourceLaw q)

theorem emptied_sourceLaw {s : State} (hs : s.SourceLaw) : s.emptied.SourceLaw :=
  sourceLaw_congr (s := s) (by rw [State.emptied]) hs

theorem State.Core.flush {s : State} (hs : s.Core) : s.flush.Core := by
  have hempty : s.emptied.Core := core_of_empty (fun i => by rw [State.ticketAt, emptied_slotAt]) rfl
    (emptied_deferralOf s) (fun h => by rw [emptied_port]) (emptied_sourceLaw hs.pool.source)
  have hstep (t : State) (src : SourceId) (ht : t.Core) : (t.flushStep src).Core := by
    refine ht.undisturbed (poolLaws_keptByPool.flushStep t src) (flushStep_onlyPool t src).ports ?_
    unfold State.flushStep
    split
    · exact occurrence_undisturbed t src 0
    · exact .refl t
  rw [flush_eq]
  exact (foldl_keeps hstep _ _ hempty).recompute

/-! ## Claims -/

/-- The members of a set that is not empty (R144). -/
theorem ne_zero_of_has {S : HostSet} {h : Port} (hh : HostSet.has S h = true) : S ≠ 0 := by
  rintro rfl
  rw [has_zero] at hh
  cases hh

/-- Only the policy SINGLE goes with source 48 (R2). -/
theorem ne_faultSource_of_each {u : Ticket} (hlaw : u.Law) (heach : u.policy = .each) : u.source ≠ faultSource := by
  intro hf
  have := (hlaw.2.2.2.2.2.2.2.2.2 hf).1
  rw [heach] at this
  cases this

/-- A claimed ticket is in service (R51 to R53). -/
theorem afterClaim_waits {s : State} {h : Port} {u : Ticket} (he : s.entitled h u = true) :
    (s.afterClaim h u).waits = false :=
  waits_eq_false_of_workedBy (h := h) (by rw [workedBy_afterClaim (claimable_of_entitled he).1]; simp)

section
variable {s : State} {h : Port} {u : Ticket} (hfits : s.Fits u) (ha : (s.port h).state = .attached)
  (he : s.entitled h u = true)
include hfits ha he

/-- The sets of a claimed ticket: nobody that is owed it is DETACHED, its claimers are owed it, and somebody is (R52,
R53). -/
theorem afterClaim_sets :
    (∀ g, s.attached g = false → HostSet.has (s.afterClaim h u).owed g = false)
      ∧ (s.afterClaim h u).claimed &&& ~~~ (s.afterClaim h u).owed = 0
      ∧ ((s.afterClaim h u).inRound = true → (s.afterClaim h u).owed ≠ 0) := by
  rcases entitled_iff.1 he with ⟨hwaits, heligible⟩ | ⟨hround, howed, -⟩
  · have hwaiting := waits_iff.1 hwaits
    cases hpolicy : u.policy with
    | single =>
      simp only [State.afterClaim, State.claimStanding, hwaiting, hpolicy, Ticket.owed, Ticket.claimed, Ticket.inRound]
      exact ⟨fun g _ => has_zero g, by simp, nofun⟩
    | each =>
      rw [if_neg (ne_faultSource_of_each hfits.law hpolicy)] at heligible
      simp only [State.afterClaim, State.claimStanding, hwaiting, hpolicy, Ticket.owed, Ticket.claimed]
      have hself : HostSet.has (s.attachedOf u.eligible) h = true := by
        rw [has_attachedOf, heligible, ha]
        rfl
      refine ⟨fun g hg => ?_, and_not_eq_zero_iff.2 fun g hg => ?_, fun _ => ne_zero_of_has hself⟩
      · rw [has_attachedOf, ← State.attached, hg, Bool.and_false]
      · rw [has_only, decide_eq_true_iff] at hg
        rw [hg, hself]
  · obtain ⟨-, -, -, -, -, -, -, -, hwithin, -⟩ := hfits.law
    cases hstanding : u.standing with
    | waiting => simp [Ticket.inRound, hstanding] at hround
    | held g => simp [Ticket.inRound, hstanding] at hround
    | spread o c x =>
      have hdetached := hfits.owed
      simp only [Ticket.owed, Ticket.claimed, hstanding] at howed hwithin hdetached
      simp only [State.afterClaim, State.claimStanding, hstanding, Ticket.owed, Ticket.claimed]
      refine ⟨hdetached, and_not_eq_zero_iff.2 fun g hg => ?_, fun _ => ne_zero_of_has howed⟩
      rw [has_add, Bool.or_eq_true] at hg
      rcases hg with hg | hg
      · exact and_not_eq_zero_iff.1 hwithin g hg
      · rw [of_decide_eq_true hg, howed]

omit ha in
/-- The round of a claimed ticket goes with its policy EACH (R51, R52). -/
theorem afterClaim_inRound : (s.afterClaim h u).inRound = true ↔ u.policy = .each := by
  obtain ⟨-, -, -, -, -, hsingle, heach, -⟩ := hfits.law
  rcases (claimable_of_entitled he).1 with hwaits | hround
  · rw [waits_iff] at hwaits
    cases hpolicy : u.policy <;>
      simp [State.afterClaim, State.claimStanding, Ticket.inRound, hwaits, hpolicy]
  · have hpolicy : u.policy = .each := by
      cases hpolicy : u.policy with
      | single => rw [hsingle hpolicy] at hround; cases hround
      | each => rfl
    unfold Ticket.inRound at hround ⊢
    cases hstanding : u.standing <;> simp_all [State.afterClaim, State.claimStanding]

/-- A claimed ticket fits (R51 to R53). -/
theorem afterClaim_fits : s.Fits (s.afterClaim h u) := by
  obtain ⟨hdetached, hwithin, hsome⟩ := afterClaim_sets hfits ha he
  have hround := afterClaim_inRound hfits he
  obtain ⟨hl, hc, hretry, hlapses, hpayload, -, -, -, -, hfault⟩ := hfits.law
  refine ⟨⟨hl, hc, hretry, hlapses, hpayload, fun hp => ?_, fun hp => .inl (hround.2 hp), hsome, hwithin, hfault⟩,
    hdetached, hfits.reservation, fun _ _ => afterClaim_waits he⟩
  by_contra hin
  have heach := hround.1 (by simpa using hin)
  rw [show u.policy = .single from hp] at heach
  cases heach

end

/-- The claim of an offer keeps the laws of the pool (R51 to R54). -/
theorem claimTicket_core {s : State} {h : Port} {i : SlotId} {u : Ticket} (ho : s.offer h = some i)
    (hu : s.ticketAt i = some u) (hs : s.Core) : (s.claimTicket h i u).Core := by
  obtain ⟨v, hv, ha, he, -, -, -, halone⟩ := candidate_iff.1 (offer_attached ho).1
  obtain rfl := Option.mem_unique hu hv
  have hfits := hs.pool.fits hu
  refine ⟨poolLaws_keptByPool.setStack _ h _ (hs.pool.update (t := s.setTicket i (s.afterClaim h u)) i
    (setTicket_poolSound _ (by rw [hu]; rfl) hs.pool.sound) (setTicket_onlyPool ..).sameContext
    (fun j hj => by rw [State.setTicket_ticketAt, if_neg hj]) (fun _ _ => id) fun w hw => ?_),
    claimTicket_holdingLaw hu he hs.holding⟩
  rw [State.setTicket_ticketAt, if_pos rfl] at hw
  obtain rfl := Option.some.inj hw
  refine ⟨afterClaim_fits hfits ha he, fun hw => ?_, fun hin => ?_, fun _ => .inl (holdsSource_iff.2 ⟨u, hu, rfl⟩)⟩
  · rw [afterClaim_waits he] at hw
    cases hw
  · rcases (claimable_of_entitled he).1 with hwaits | hround
    · exact (otherRound_eq_false hs.pool.sound.1).1 (halone ((afterClaim_inRound hfits he).1 hin) hwaits)
    · exact hs.pool.aloneInRound (u := u) hu hround

/-! ## Departures -/

/-- The laws of the pool read of the ports only which are DETACHED. -/
theorem poolLaws_of_absent {s t : State} (hpool : t.pool = s.pool) (hsources : t.sources = s.sources)
    (hlevel : t.faultLevel = s.faultLevel) (hrecords : t.faults.records = [] → s.faults.records = [])
    (habsent : t.AbsentLaw) (hs : s.PoolLaws) : t.PoolLaws := by
  have hattached : State.PoolLaws { t with ports := s.ports } :=
    poolLaws_keptByPool.congr s hpool (fun _ => rfl) hsources hlevel hrecords hs
  exact ⟨hattached.sound, hattached.ticket, fun src d hd => by
      rw [config_level_congr (s := { t with ports := s.ports }) (t := t) rfl rfl]
      exact hattached.deferral src d hd,
    hattached.oneWaiting, hattached.oneRound, hattached.post, habsent, hattached.faultSource,
    sourceLaw_congr (s := { t with ports := s.ports }) rfl hattached.source⟩

/-- A port that is owed nothing becomes DETACHED, and the reservations for it end (R48, R141). -/
theorem State.Core.detach {r : State} {h : Port} (hr : r.Core) (hnone : ∀ i, r.NotOwed h i) :
    ((r.setPort h { r.port h with state := .detached }).endReservationsOf h).Core := by
  obtain ⟨d, hd⟩ : ∃ d, d = r.setPort h { r.port h with state := .detached } := ⟨_, rfl⟩
  rw [← hd]
  have hpool : d.pool = r.pool := by rw [hd, State.setPort_pool]
  have hattached (g : Port) (hg : g ≠ h) : d.attached g = r.attached g := by
    rw [hd, State.attached, State.setPort_port, if_neg hg, ← State.attached]
  have hwork (g : Port) : d.work g = r.work g := by
    rw [hd, State.work, State.setPort_port]
    split
    next hg => rw [hg]; rfl
    next => rfl
  have hended : (d.endReservationsOf h).pool = (r.endReservationsOf h).pool := by
    rw [hd]
    rfl
  refine ⟨poolLaws_of_absent (s := r.endReservationsOf h) hended (by rw [hd]; rfl) (by rw [hd]; rfl) (by rw [hd]; exact id)
    (fun g hg i v hv => ?_) (hr.pool.unreserveAll h),
    endReservationsOf_holdingLaw h (holdingLaw_of_undisturbed hwork (undisturbed_of_pool hpool) hr.holding)⟩
  have hticket : d.ticketAt i = r.ticketAt i := by
    rw [State.ticketAt, State.slotAt, hpool]
    rfl
  rw [Option.mem_def, endReservationsOf_ticketAt, hticket, Option.map_eq_some_iff] at hv
  obtain ⟨u, hu, rfl⟩ := hv
  rw [(endReservationsOf_onlyPool d h).attached] at hg
  by_cases hgh : g = h
  · subst hgh
    exact ⟨hnone i u hu, fun x hx => by simpa using (Option.mem_filter_iff.1 hx).2⟩
  · rw [hattached g hgh] at hg
    obtain ⟨howed, hreservation⟩ := hr.pool.absent g hg i u hu
    exact ⟨howed, fun x hx => hreservation x (Option.mem_filter_iff.1 hx).1⟩

theorem State.Core.endReservationsOf {s : State} (hs : s.Core) (h : Port) : (s.endReservationsOf h).Core :=
  ⟨hs.pool.unreserveAll h, endReservationsOf_holdingLaw h hs.holding⟩

/-- A departure keeps the laws: its host is owed nothing after the release, and reserved nothing at the end (R141). -/
theorem State.Core.depart {s : State} (hs : s.Core) (h : Port) : (s.depart h).Core := by
  obtain ⟨hreleased, hnone⟩ := (hs.endReservationsOf h).release h
  have hstopped : (((s.endReservationsOf h).release h).stopTimersOf h).Core :=
    core_congr (s := (s.endReservationsOf h).release h) rfl (fun _ => rfl) rfl rfl id (fun _ => rfl) hreleased
  exact hstopped.detach hnone

theorem State.Core.portLeft {s : State} (hs : s.Core) (h : Port) : (s.portLeft h).Core := by
  refine core_congr (s := s.depart h) (portLeft_pool s h) (fun g => by rw [portLeft_attached, depart_attached]) ?_ ?_
    (fun hnil => by rwa [portLeft_faults] at hnil) (fun g => by rw [State.work, portLeft_port]; rfl) (hs.depart h)
  · rw [State.portLeft, recompute_sources]
  · rw [State.portLeft, recompute_faultLevel]

theorem State.Core.ejectPort {s : State} (hs : s.Core) (h : Port) : (s.ejectPort h).Core := by
  refine core_congr (s := s.depart h) (ejectPort_pool s h) (fun g => by rw [ejectPort_attached, depart_attached]) ?_ ?_
    (fun hnil => by rwa [ejectPort_faults] at hnil) (fun g => by rw [State.work, ejectPort_port]; rfl) (hs.depart h)
  · rw [State.ejectPort, recompute_sources, State.setPort_sources]
  · rw [State.ejectPort, recompute_faultLevel, State.setPort_faultLevel]

/-- A port that joins takes no law away: a law speaks of DETACHED ports alone (R140). -/
theorem State.Core.portJoined {s : State} (hs : s.Core) (h : Port) : (s.portJoined h).Core := by
  refine State.Core.recompute ⟨poolLaws_of_absent (s := s) rfl rfl rfl id (fun g hg i u hu => ?_) hs.pool,
    holdingLaw_of_undisturbed (s := s) (fun g => ?_) (undisturbed_of_pool rfl) hs.holding⟩
  · refine hs.pool.absent g ?_ i u hu
    rw [State.attached, State.setPort_port] at hg
    split at hg
    next => cases hg
    next => exact hg
  · rw [State.work, State.setPort_port]
    split
    next hg => rw [hg]; rfl
    next => rfl

end Sys2Proof.Machine
end

section
/-! SUPPORT. The nine configuration bytes of a source (R11, R146). -/

namespace Sys2Proof.Machine

/-! ## The record of nine bytes -/

/-- The record that nine bytes give, with what the preferred host byte and the byte of sense and filter stand for. -/
def recordFields (c : Vector Byte 9) (preferred : Option Port) (sense : Sense) (filter : Fin 16) : SourceRecord :=
  { level := ((look c 0).extractLsb' 0 4).toFin
    policy := if (look c 1).getLsbD 0 then .each else .single
    eligible := (look c 2).extractLsb' 0 4
    preferred := preferred
    window := wordOf (look c 4) (look c 5)
    serviceLimit := (wordOf (look c 6) (look c 7)).extractLsb' 4 12
    retryLimit := ((wordOf (look c 6) (look c 7)).extractLsb' 0 3).toFin
    sense := sense
    filter := filter }

theorem recordFields_policy {c : Vector Byte 9} {preferred : Option Port} {sense : Sense} {filter : Fin 16} :
    (recordFields c preferred sense filter).policy = .single ↔ (look c 1).getLsbD 0 = false := by
  unfold recordFields
  cases (look c 1).getLsbD 0 <;> simp

/-- No bit that R146 does not name is set. -/
def NoStrayBit (c : Vector Byte 9) : Prop :=
  (look c 0).extractLsb' 4 4 = 0 ∧ (look c 1).extractLsb' 1 7 = 0 ∧ (look c 2).extractLsb' 4 4 = 0
    ∧ (wordOf (look c 6) (look c 7)).getLsbD 3 = false

/-- The ranges that R11 asks of a record by itself: a retry limit that is not 0, and a preferred host only for the
policy SINGLE and only if it is eligible. -/
def SourceRecord.InRange (r : SourceRecord) : Prop :=
  r.retryLimit ≠ 0 ∧ ∀ h ∈ r.preferred, r.policy = .single ∧ HostSet.has r.eligible h = true

/-- Nine bytes are accepted exactly where the preferred host byte and the byte of sense and filter have a meaning, no
stray bit is set, and the record is in range (R11, R146). -/
theorem recordOfBytes_eq_some {src : SourceId} {c : Vector Byte 9} {r : SourceRecord} :
    recordOfBytes src c = some r ↔
      ∃ preferred x, preferredOfByte (look c 3) = some preferred ∧ senseFilter src (look c 8) = some x ∧ NoStrayBit c
        ∧ r = recordFields c preferred x.1 x.2 ∧ r.InRange := by
  unfold recordOfBytes
  dsimp only
  cases hp : preferredOfByte (look c 3) with
  | none => exact ⟨nofun, fun ⟨_, _, h, _⟩ => nomatch h⟩
  | some preferred =>
    cases hx : senseFilter src (look c 8) with
    | none => exact ⟨nofun, fun ⟨_, _, _, h, _⟩ => nomatch h⟩
    | some x =>
      dsimp only
      by_cases hok : NoStrayBit c ∧ (recordFields c preferred x.1 x.2).InRange
      · obtain ⟨hbits, hretry, hhost⟩ := id hok
        rw [if_neg]
        · refine ⟨fun h => ⟨preferred, x, rfl, rfl, hbits, (Option.some.inj h).symm, Option.some.inj h ▸ hok.2⟩, ?_⟩
          rintro ⟨_, _, h1, h2, -, rfl, -⟩
          obtain rfl := Option.some.inj h1
          obtain rfl := Option.some.inj h2
          rfl
        · rintro (hstray | hzero | hbad)
          · obtain ⟨h0, h1, h2, h3⟩ := hbits
            exact hstray.elim (fun h => h h0) fun h => h.elim (fun h => h h1) fun h => h.elim (fun h => h h2)
              fun h => by rw [h3] at h; cases h
          · exact hretry hzero
          · cases preferred with
            | none => cases hbad
            | some g =>
              obtain ⟨hsingle, heligible⟩ := hhost g rfl
              rw [recordFields_policy] at hsingle
              have hmember : HostSet.has ((look c 2).extractLsb' 0 4) g = true := heligible
              dsimp only at hbad
              rw [hsingle, hmember] at hbad
              cases hbad
      · rw [if_pos]
        · refine ⟨nofun, ?_⟩
          rintro ⟨_, _, h1, h2, hbits, rfl, hrange⟩
          obtain rfl := Option.some.inj h1
          obtain rfl := Option.some.inj h2
          exact absurd ⟨hbits, hrange⟩ hok
        · by_contra hgood
          obtain ⟨hbits, hgood⟩ := not_or.1 hgood
          obtain ⟨hretry, hhost⟩ := not_or.1 hgood
          refine hok ⟨?_, hretry, fun g hg => ?_⟩
          · simpa [NoStrayBit] using hbits
          · obtain rfl : preferred = some g := hg
            rw [Bool.or_eq_true, not_or, beq_iff_eq, Bool.not_eq_true, Bool.not_eq_false'] at hhost
            refine ⟨?_, hhost.2⟩
            rw [recordFields_policy]
            by_contra hbit
            rw [if_pos (by simpa using hbit)] at hhost
            exact hhost.1 rfl

/-! ## The bytes as numbers -/

theorem upperNibble_eq_zero (b : Byte) : b.extractLsb' 4 4 = 0 ↔ b.toNat < 16 := by
  revert b
  decide

theorem upperBits_eq_zero (b : Byte) : b.extractLsb' 1 7 = 0 ↔ b.toNat < 2 := by
  revert b
  decide

/-- A two-byte field as a number (R143). -/
theorem wordOf_toNat (hi lo : Byte) : (wordOf hi lo).toNat = 256 * hi.toNat + lo.toNat := by
  rw [wordOf, BitVec.toNat_append, ← Nat.shiftLeft_add_eq_or_of_lt lo.isLt, Nat.shiftLeft_eq]
  ring

theorem noStrayBit_iff {c : Vector Byte 9} :
    NoStrayBit c ↔ (look c 0).toNat < 16 ∧ (look c 1).toNat < 2 ∧ (look c 2).toNat < 16
      ∧ (look c 7).toNat / 8 % 2 = 0 := by
  have hbit : (wordOf (look c 6) (look c 7)).getLsbD 3 = false ↔ (look c 7).toNat / 8 % 2 = 0 := by
    rw [BitVec.getLsbD, Nat.testBit_eq_decide_div_mod_eq, decide_eq_false_iff_not, wordOf_toNat]
    omega
  rw [NoStrayBit, upperNibble_eq_zero, upperBits_eq_zero, upperNibble_eq_zero, hbit]

section
variable (c : Vector Byte 9) (preferred : Option Port) (sense : Sense) (filter : Fin 16)

theorem recordFields_retryLimit : (recordFields c preferred sense filter).retryLimit.val = (look c 7).toNat % 8 := by
  change ((wordOf (look c 6) (look c 7)).extractLsb' 0 3).toNat = _
  rw [BitVec.extractLsb'_toNat, wordOf_toNat, Nat.shiftRight_zero]
  omega

theorem recordFields_serviceLimit :
    (recordFields c preferred sense filter).serviceLimit.toNat = 16 * (look c 6).toNat + (look c 7).toNat / 16 := by
  have h6 := (look c 6).isLt
  have h7 := (look c 7).isLt
  change ((wordOf (look c 6) (look c 7)).extractLsb' 4 12).toNat = _
  rw [BitVec.extractLsb'_toNat, wordOf_toNat, Nat.shiftRight_eq_div_pow]
  omega

theorem recordFields_level (h : (look c 0).toNat < 16) :
    (recordFields c preferred sense filter).level.val = (look c 0).toNat := by
  change ((look c 0).extractLsb' 0 4).toNat = _
  rw [BitVec.extractLsb'_toNat, Nat.shiftRight_zero]
  omega

theorem recordFields_eligible (h : (look c 2).toNat < 16) :
    (recordFields c preferred sense filter).eligible.toNat = (look c 2).toNat := by
  change ((look c 2).extractLsb' 0 4).toNat = _
  rw [BitVec.extractLsb'_toNat, Nat.shiftRight_zero]
  omega

end

/-- The policy bit, of a byte without stray bits (R144). -/
theorem policyBit_eq_false (b : Byte) (h : b.toNat < 2) : b.getLsbD 0 = false ↔ b = 0 := by
  revert b
  decide

theorem has_eligibleBits (b : Byte) (g : Port) : HostSet.has (b.extractLsb' 0 4) g = b.toNat.testBit g.val := by
  revert b g
  decide

/-- The preferred host byte FFh names none, and a port's number names the port (R146). -/
theorem preferredOfByte_eq_some {b : Byte} {preferred : Option Port} :
    preferredOfByte b = some preferred ↔
      (b = 0xFF ∧ preferred = none) ∨ ∃ g : Port, b.toNat = g.val ∧ preferred = some g := by
  unfold preferredOfByte
  split
  next hff =>
    subst hff
    refine ⟨fun h => .inl ⟨rfl, (Option.some.inj h).symm⟩, fun h => ?_⟩
    rcases h with ⟨-, rfl⟩ | ⟨g, hg, -⟩
    · rfl
    · have := g.isLt
      have hff : (0xFF#8).toNat = 255 := rfl
      omega
  next hff =>
    rw [Option.map_eq_some_iff]
    simp only [portOfByte_eq_some]
    refine ⟨fun ⟨g, hg, h⟩ => .inr ⟨g, hg, h.symm⟩, fun h => ?_⟩
    rcases h with ⟨h, -⟩ | ⟨g, hg, h⟩
    · exact absurd h hff
    · exact ⟨g, hg, h.symm⟩

/-- The sense codes (R144). -/
theorem senseOfNat_isSome (n : Nat) : (senseOfNat n).isSome = true ↔ n ≤ 4 := by
  rcases n with _ | _ | _ | _ | _ | n <;> simp [senseOfNat]

theorem senseFilter_line {src : SourceId} (h : src.val < 32) (b : Byte) :
    senseFilter src b =
      (senseOfNat (b.toNat / 16)).map fun sense => (sense, (b.extractLsb' 0 4).toFin) := by
  have hcode : (b.extractLsb' 4 4).toNat = b.toNat / 16 := by revert b; decide
  rw [senseFilter, SourceId.line, dif_pos h, ← hcode]

theorem senseFilter_other {src : SourceId} (h : ¬ src.val < 32) (b : Byte) :
    senseFilter src b = if b = 0xF0 then some (.rising, 0) else none := by
  rw [senseFilter, SourceId.line, dif_neg h]
  rfl

theorem senseFilter_isSome (src : SourceId) (b : Byte) :
    (senseFilter src b).isSome = true ↔ if src.val < 32 then b.toNat / 16 ≤ 4 else b = 0xF0 := by
  by_cases h : src.val < 32
  · rw [senseFilter_line h, if_pos h, Option.isSome_map, senseOfNat_isSome]
  · rw [senseFilter_other h, if_neg h]
    split <;> simp_all

/-- The host that the preferred host byte names is one the policy and the eligible set allow (R11). -/
theorem preferred_accepted_iff {c : Vector Byte 9} (h1 : (look c 1).toNat < 2) (sense : Sense) (filter : Fin 16) :
    (∃ preferred, preferredOfByte (look c 3) = some preferred
        ∧ ∀ h ∈ preferred, (recordFields c preferred sense filter).policy = .single
          ∧ HostSet.has (recordFields c preferred sense filter).eligible h = true)
      ↔ (look c 3 = 0xFF
        ∨ ((look c 3).toNat < 4 ∧ look c 1 = 0 ∧ (look c 2).toNat.testBit (look c 3).toNat)) := by
  simp only [preferredOfByte_eq_some, recordFields_policy, policyBit_eq_false _ h1]
  constructor
  · rintro ⟨_, ⟨hff, rfl⟩ | ⟨g, hg, rfl⟩, hhost⟩
    · exact .inl hff
    · obtain ⟨hsingle, heligible⟩ := hhost g rfl
      refine .inr ⟨hg ▸ g.isLt, hsingle, ?_⟩
      rw [hg, ← has_eligibleBits]
      exact heligible
  · rintro (hff | ⟨hlt, hsingle, heligible⟩)
    · exact ⟨none, .inl ⟨hff, rfl⟩, nofun⟩
    · refine ⟨some ⟨_, hlt⟩, .inr ⟨⟨_, hlt⟩, rfl, rfl⟩, fun h hh => ⟨hsingle, ?_⟩⟩
      obtain rfl := Option.some.inj hh
      exact (has_eligibleBits _ _).trans heligible

/-- The nine bytes of a source 0 to 47 are accepted by R11 and R146. -/
theorem recordOfBytes_isSome (src : SourceId) (c : Vector Byte 9) :
    (recordOfBytes src c).isSome = true ↔
      (look c 0).toNat < 16 ∧ (look c 1).toNat < 2 ∧ (look c 2).toNat < 16
        ∧ (look c 3 = 0xFF ∨ ((look c 3).toNat < 4 ∧ look c 1 = 0 ∧ (look c 2).toNat.testBit (look c 3).toNat))
        ∧ (look c 7).toNat / 8 % 2 = 0 ∧ (look c 7).toNat % 8 ≠ 0
        ∧ (if src.val < 32 then (look c 8).toNat / 16 ≤ 4 else look c 8 = 0xF0) := by
  have hretry (preferred : Option Port) (x : Sense × Fin 16) :
      (recordFields c preferred x.1 x.2).retryLimit ≠ 0 ↔ (look c 7).toNat % 8 ≠ 0 := by
    rw [← recordFields_retryLimit c preferred x.1 x.2]
    exact not_congr Fin.ext_iff
  rw [← senseFilter_isSome, Option.isSome_iff_exists, Option.isSome_iff_exists]
  simp only [recordOfBytes_eq_some, noStrayBit_iff]
  constructor
  · rintro ⟨_, preferred, x, hp, hx, ⟨h0, h1, h2, h7⟩, rfl, hnz, hhost⟩
    exact ⟨h0, h1, h2, (preferred_accepted_iff h1 x.1 x.2).1 ⟨preferred, hp, hhost⟩, h7, (hretry preferred x).1 hnz,
      x, hx⟩
  · rintro ⟨h0, h1, h2, h3, h7, hnz, x, hx⟩
    obtain ⟨preferred, hp, hhost⟩ := (preferred_accepted_iff h1 x.1 x.2).2 h3
    exact ⟨_, preferred, x, hp, hx, ⟨h0, h1, h2, h7⟩, rfl, (hretry preferred x).2 hnz, hhost⟩

/-- The sense and the filter of an accepted record (R144, R146). -/
theorem senseFilter_fields {src : SourceId} {b : Byte} {x : Sense × Fin 16} (hx : senseFilter src b = some x) :
    if src.val < 32 then
      x.1 = (match b.toNat / 16 with
        | 0 => .rising
        | 1 => .falling
        | 2 => .both
        | 3 => .high
        | _ => .low)
      ∧ x.2.val = b.toNat % 16
    else x.1 = .rising ∧ x.2 = 0 := by
  by_cases h : src.val < 32
  · rw [senseFilter_line h, Option.map_eq_some_iff] at hx
    obtain ⟨sense, hsense, rfl⟩ := hx
    rw [if_pos h]
    refine ⟨?_, ?_⟩
    · generalize b.toNat / 16 = n at hsense
      rcases n with _ | _ | _ | _ | _ | n <;> simp only [senseOfNat, Option.some.injEq, reduceCtorEq] at hsense <;>
        exact hsense.symm
    · change (b.extractLsb' 0 4).toNat = _
      rw [BitVec.extractLsb'_toNat, Nat.shiftRight_zero]
  · rw [senseFilter_other h] at hx
    split at hx
    · obtain rfl := Option.some.inj hx
      rw [if_neg h]
      exact ⟨rfl, rfl⟩
    · cases hx

/-- The nine bytes of source 48 are accepted where c0 is a level and the rest are FFh (R146). -/
theorem faultLevelOfBytes_eq_some {c : Vector Byte 9} {l : Fin 16} :
    faultLevelOfBytes c = some l ↔ ((look c 0).toNat < 16 ∧ ∀ k : Fin 9, k ≠ 0 → look c k = 0xFF)
      ∧ l.val = (look c 0).toNat := by
  have htail : c.toList.tail = List.replicate 8 0xFF#8 ↔ ∀ k : Fin 9, k ≠ 0 → look c k = 0xFF := by
    rw [List.eq_replicate_iff]
    constructor
    · rintro ⟨-, h⟩ k hk
      obtain ⟨j, rfl⟩ := Fin.exists_succ_eq.2 hk
      exact h _ (List.mem_iff_getElem.2 ⟨j.val, by simp, by simp [look]⟩)
    · intro h
      refine ⟨by simp, fun b hb => ?_⟩
      obtain ⟨j, hj, rfl⟩ := List.mem_iff_getElem.1 hb
      have hlt : j < 8 := by simpa using hj
      simpa [look] using h ⟨j + 1, by omega⟩ (by simp [Fin.ext_iff])
  have haccepted : ((look c 0).extractLsb' 4 4 = 0 ∧ c.toList.tail = List.replicate 8 0xFF#8)
      ↔ (look c 0).toNat < 16 ∧ ∀ k : Fin 9, k ≠ 0 → look c k = 0xFF := and_congr (upperNibble_eq_zero _) htail
  unfold faultLevelOfBytes
  dsimp only
  rw [← haccepted]
  split
  next hok =>
    rw [Option.some.injEq, Fin.ext_iff]
    have hlevel : ((look c 0).extractLsb' 0 4).toFin.val = (look c 0).toNat := 
      recordFields_level c none .rising 0 (haccepted.1 hok).1
    rw [hlevel]
    exact ⟨fun h => ⟨hok, h.symm⟩, fun h => h.2.symm⟩
  next hno => exact ⟨nofun, fun h => absurd h.1 hno⟩

/-- Settles O37, field by field: each field reads its own bytes, and each condition of R11 speaks of one or two. -/
theorem configurationBytesDecode : Obligations.ConfigurationBytesDecode := by
  refine ⟨fun s c => ⟨?_, fun r hr l hl => ?_⟩, fun s src c hf => by rw [State.recordGiven, if_neg hf],
    fun src c _ => ⟨recordOfBytes_isSome src c, fun r hr => ?_⟩⟩
  · rw [State.recordGiven, if_pos rfl, Option.isSome_map, Option.isSome_iff_exists]
    simp only [faultLevelOfBytes_eq_some]
    exact ⟨fun ⟨_, h, _⟩ => h, fun h => ⟨⟨_, h.1⟩, h, rfl⟩⟩
  · rw [Option.mem_def, State.recordGiven, if_pos rfl, Option.map_eq_some_iff] at hr
    obtain ⟨level, hlevel, rfl⟩ := hr
    have heq : level = l := Fin.ext ((faultLevelOfBytes_eq_some.1 hlevel).2.trans hl.symm)
    rw [heq]
    rfl
  · obtain ⟨preferred, x, hp, hx, hbits, rfl, hrange⟩ := recordOfBytes_eq_some.1 hr
    obtain ⟨h0, h1, h2, -⟩ := noStrayBit_iff.1 hbits
    refine ⟨recordFields_level c _ _ _ h0, ?_, recordFields_eligible c _ _ _ h2, ?_, wordOf_toNat _ _,
      recordFields_serviceLimit c _ _ _, recordFields_retryLimit c _ _ _, senseFilter_fields hx⟩
    · split
      next hsingle => exact recordFields_policy.2 ((policyBit_eq_false _ h1).2 hsingle)
      next hsingle =>
        rw [← policyBit_eq_false _ h1] at hsingle
        exact if_pos (by simpa using hsingle)
    · change preferred.map Fin.val = _
      rcases preferredOfByte_eq_some.1 hp with ⟨hff, rfl⟩ | ⟨g, hg, rfl⟩
      · rw [if_pos hff]
        rfl
      · rw [if_neg, hg]
        · rfl
        · intro hff
          have := g.isLt
          rw [hff] at hg
          have h255 : BitVec.toNat (0xFF : Byte) = 255 := rfl
          omega

end Sys2Proof.Machine
end

section
/-! SUPPORT. Every law of the part over a step: the configuration of a source, the reading of a fault record, and all
the acts together. -/

namespace Sys2Proof.Machine

/-! ## Configuration -/

/-- The sense and filter bytes give a source that is no line source the reset values (R146). -/
theorem senseFilter_of_noLine {src : SourceId} {c8 : Byte} {x : Sense × Fin 16} (hx : senseFilter src c8 = some x)
    (hsrc : (SourceId.line src).isNone = true) : x = (.rising, 0) := by
  rw [senseFilter, Option.isNone_iff_eq_none.1 hsrc] at hx
  dsimp only at hx
  split at hx
  · exact (Option.some.inj hx).symm
  · cases hx

/-- A record that nine bytes give keeps the ranges of R11. -/
theorem recordOfBytes_ranges {src : SourceId} {c : Vector Byte 9} {r : SourceRecord}
    (hr : recordOfBytes src c = some r) :
    r.retryLimit ≠ 0 ∧ (r.policy = .each → r.preferred = none)
      ∧ (∀ h ∈ r.preferred, HostSet.has r.eligible h = true)
      ∧ ((SourceId.line src).isNone = true → r.sense = .rising ∧ r.filter = 0) := by
  obtain ⟨preferred, x, -, hx, -, rfl, hretry, hhost⟩ := recordOfBytes_eq_some.1 hr
  refine ⟨hretry, fun heach => ?_, fun h hh => (hhost h hh).2, fun hnone => ?_⟩
  · by_contra hsome
    obtain ⟨h, hh⟩ := Option.ne_none_iff_exists'.1 hsome
    rw [(hhost h hh).1] at heach
    cases heach
  · exact Prod.mk.inj (senseFilter_of_noLine hx hnone)

/-- A SOURCE_SET that is accepted keeps the ranges of the records (R11). -/
theorem setConfig_sourceLaw {s : State} {src : SourceId} {c : Vector Byte 9} {r : SourceRecord}
    (hr : s.recordGiven src c = some r) (hs : s.SourceLaw) : (s.setConfig src r).SourceLaw := by
  by_cases hf : src = faultSource
  · subst hf
    exact sourceLaw_congr (s := s) (by rw [State.setConfig, dif_neg (by decide)]) hs
  · rw [State.recordGiven, if_neg hf] at hr
    intro other
    rw [State.setConfig_config s src other r hf]
    split
    next ho =>
      subst ho
      exact recordOfBytes_ranges hr
    next => exact hs other

/-- A record set leaves every other source's record (R11, R15). -/
theorem setConfig_level (s : State) (src other : SourceId) (r : SourceRecord) :
    ((s.setConfig src r).config other).level = if other = src then r.level else (s.config other).level := by
  by_cases hf : src = faultSource
  · subst hf
    rw [State.setConfig, dif_neg (by decide)]
    unfold State.config
    by_cases hlt : other.val < 48
    · rw [dif_pos hlt, dif_pos hlt, if_neg]
      rintro rfl
      exact absurd hlt (by decide)
    · rw [dif_neg hlt, if_pos (eq_faultSource_of_not_lt hlt)]
      rfl
  · rw [State.setConfig_config s src other r hf]
    split <;> rfl

/-- Beside the source table a record set leaves everything. -/
theorem setConfig_frame (s : State) (src : SourceId) (r : SourceRecord) :
    s.setConfig src r =
      { s with sources := (s.setConfig src r).sources, faultLevel := (s.setConfig src r).faultLevel } := by
  unfold State.setConfig
  split <;> rfl

theorem setConfig_ticketAt (s : State) (src : SourceId) (r : SourceRecord) (i : SlotId) :
    (s.setConfig src r).ticketAt i = s.ticketAt i := by rw [setConfig_frame]; rfl

theorem setConfig_deferralOf (s : State) (src other : SourceId) (r : SourceRecord) :
    (s.setConfig src r).deferralOf other = s.deferralOf other := by rw [setConfig_frame]; rfl

/-- The laws of the pool stand under a new record, unless it disables a source that is deferred. -/
theorem setConfig_poolLaws {s : State} {src : SourceId} {c : Vector Byte 9} {r : SourceRecord}
    (hr : s.recordGiven src c = some r) (hl : r.level = 0 → s.deferralOf src = none) (hs : s.PoolLaws) :
    (s.setConfig src r).PoolLaws := by
  refine ⟨poolSound_of_pool (s := s) (by rw [setConfig_frame]) hs.sound, fun i u hu => ?_, fun other d hd => ?_,
    fun i j u hu v hv => ?_, fun i j u hu v hv => ?_, fun other hp => ?_, fun g hg i u hu => ?_, fun hnil => ?_,
    setConfig_sourceLaw hr hs.source⟩
  · rw [setConfig_ticketAt] at hu
    exact hs.ticket i u hu
  · rw [setConfig_deferralOf] at hd
    obtain ⟨hcount, hlevel, hp, hnone⟩ := hs.deferral other d hd
    refine ⟨hcount, ?_, hp, fun i u hu => ?_⟩
    · rw [setConfig_level]
      split
      next ho =>
        subst ho
        intro h0
        rw [hl h0] at hd
        cases hd
      next => exact hlevel
    · rw [setConfig_ticketAt] at hu
      exact hnone i u hu
  · rw [setConfig_ticketAt] at hu hv
    exact hs.oneWaiting i j u hu v hv
  · rw [setConfig_ticketAt] at hu hv
    exact hs.oneRound i j u hu v hv
  · have hcount : (s.setConfig src r).liveCount other = s.liveCount other := by rw [setConfig_frame]; rfl
    rw [hcount]
    exact hs.post other hp
  · rw [setConfig_ticketAt] at hu
    refine hs.absent g ?_ i u hu
    rw [setConfig_frame] at hg
    exact hg
  · have hrecords : s.faults.records = [] := by rw [setConfig_frame] at hnil; exact hnil
    refine ⟨by rw [setConfig_deferralOf]; exact (hs.faultSource hrecords).1, fun i u hu => ?_⟩
    rw [setConfig_ticketAt] at hu
    exact (hs.faultSource hrecords).2 i u hu

/-- With no WAITING ticket of a source there is none to find. -/
theorem waitsFor_eq_false {s : State} {src : SourceId}
    (hnone : ∀ i : SlotId, ∀ u ∈ s.ticketAt i, u.source = src → u.waits = false) (i : SlotId) :
    s.waitsFor src i = false := by
  unfold State.waitsFor
  split
  next u hu =>
    by_contra hw
    rw [Bool.not_eq_false, Bool.and_eq_true, beq_iff_eq] at hw
    have := hnone i u hu hw.1
    rw [Ticket.waits, hw.2] at this
    cases this
  next => rfl

/-- A source with no WAITING ticket loses its deferral alone to a withdrawal, and to a disabling (R7, R14). -/
theorem withdraw_of_noneWaiting {s : State} {src : SourceId}
    (hnone : ∀ i : SlotId, ∀ u ∈ s.ticketAt i, u.source = src → u.waits = false) :
    s.withdraw src = s.setDeferral src none ∧ s.disable src = s.setDeferral src none := by
  have hno := waitsFor_eq_false hnone
  constructor
  · have hw : s.waitingTicket src = none := List.find?_eq_none.2 fun i _ => by rw [hno]; exact Bool.false_ne_true
    rw [State.withdraw, hw]
  · have hw : s.waitingTickets src = [] := List.filter_eq_nil_iff.2 fun i _ => by rw [hno]; exact Bool.false_ne_true
    rw [State.disable, hw]
    rfl

theorem setDeferral_twice (s : State) (src : SourceId) (d e : Option Deferral) :
    (s.setDeferral src d).setDeferral src e = s.setDeferral src e := by
  refine State.ext_fields rfl rfl rfl rfl ?_ rfl rfl rfl rfl rfl
  simp

/-- A SOURCE_SET to level 0 makes no occurrence, and takes what pending work its source has (R14). -/
theorem afterSourceSet_of_disabled {s before : State} {src : SourceId} (hl : (s.config src).level = 0)
    (hnone : ∀ i : SlotId, ∀ u ∈ s.ticketAt i, u.source = src → u.waits = false) :
    s.afterSourceSet before src = s.setDeferral src none := by
  have hocc : s.occurrenceOnSet before src = s := by simp [State.occurrenceOnSet, State.heldActive, hl]
  obtain ⟨hwithdraw, hdisable⟩ := withdraw_of_noneWaiting hnone
  have hcleared : ∀ i : SlotId, ∀ u ∈ (s.setDeferral src none).ticketAt i, u.source = src → u.waits = false := hnone
  have hlevel : ((s.setDeferral src none).config src).level = 0 := hl
  rw [afterSourceSet_eq, hocc, State.withdrawInactive]
  split
  · rw [hwithdraw, State.disableOff, if_pos hlevel, (withdraw_of_noneWaiting hcleared).2, setDeferral_twice]
  · rw [State.disableOff, if_pos hl, hdisable]

/-- A SOURCE_SET that is accepted keeps both (R11 to R16). -/
theorem State.Core.configured {s : State} {src : SourceId} {c : Vector Byte 9} {r : SourceRecord} (hs : s.Core)
    (hr : s.recordGiven src c = some r) : ((s.setConfig src r).afterSourceSet s src).recompute.Core := by
  refine State.Core.recompute ⟨?_, holdingLaw_of_undisturbed (s := s)
    (work_of_ports (configured_ports s src r)) (Undisturbed.trans (t := s.setConfig src r)
      (undisturbed_of_pool (by rw [setConfig_frame])) (afterSourceSet_undisturbed _ s src)) hs.holding⟩
  by_cases hl : r.level = 0 → s.deferralOf src = none
  · exact poolLaws_keptByPool.afterSourceSet _ s src (setConfig_poolLaws hr hl hs.pool)
  · push Not at hl
    obtain ⟨hlevel, hd⟩ := hl
    obtain ⟨d, hd⟩ := Option.ne_none_iff_exists'.1 hd
    have hnone := (hs.pool.deferral src d hd).2.2.2
    rw [afterSourceSet_of_disabled (by rw [setConfig_level, if_pos rfl, hlevel])
      fun i u hu => hnone i u (by rwa [setConfig_ticketAt] at hu)]
    have hcleared := setConfig_poolLaws (s := s.setDeferral src none) (src := src) (c := c) (r := r) hr
      (fun _ => by rw [State.setDeferral_deferralOf, if_pos rfl]) (hs.pool.clear src)
    have hcomm : (s.setDeferral src none).setConfig src r = (s.setConfig src r).setDeferral src none := by
      unfold State.setConfig
      split <;> rfl
    rwa [hcomm] at hcleared

/-! ## The reading of a fault record -/

/-- After a withdrawal a source that is not posted has no pending work (R7). -/
theorem withdraw_noPending {s : State} {src : SourceId} (hs : s.PoolLaws) (hp : SourceId.posted src = false) :
    (s.withdraw src).deferralOf src = none
      ∧ ∀ i : SlotId, ∀ u ∈ (s.withdraw src).ticketAt i, u.source = src → u.waits = false := by
  refine ⟨?_, fun i u hu hsrc => ?_⟩
  · rw [State.withdraw, State.setDeferral_deferralOf, if_pos rfl]
  · rw [State.withdraw, State.ticketAt, State.setDeferral_slotAt, ← State.ticketAt] at hu
    cases hw : s.waitingTicket src with
    | none =>
      rw [hw] at hu
      exact waits_eq_false_of_waitingTicket hs.sound.1 hw i u hu hsrc
    | some w =>
      rw [hw] at hu
      dsimp only at hu
      obtain ⟨v, hv, hvs, hvw⟩ := ticket_of_waitingTicket hw
      by_cases hi : i = w
      · subst hi
        rcases freeTicket_cases s i with ⟨hfree, -⟩ | ⟨-, -, heq⟩ | ⟨other, d, -, -, hd, heq⟩
        · rw [hv] at hfree
          cases hfree
        · rw [heq, State.ticketAt, clearSlot_slotAt, if_pos rfl] at hu
          cases hu
        · have hother := (hs.deferral other d hd).2.2.2 i v hv
          rw [heq, State.ticketAt, State.setDeferral_slotAt, ← State.ticketAt, createTicket_ticketAt, if_pos rfl] at hu
          obtain rfl := Option.some.inj hu
          rw [hother (hvs.trans hsrc.symm)] at hvw
          cases hvw
      · rw [State.ticketAt, freeTicket_slotAt_of_ne s hi] at hu
        by_contra hwaits
        exact hi (hs.oneWaiting i w u hu v hv (hsrc.trans hvs.symm) (hsrc ▸ hp) (by simpa using hwaits) hvw)

/-- A change of the fault queue alone is none that the operations of the pool see, its emptiness apart. -/
theorem sameView_faults (s : State) (q : FaultQueue) : SameView s { s with faults := q } :=
  ⟨rfl, rfl, rfl, rfl, rfl, fun _ => rfl⟩

/-- The reading of a record keeps both: with the last one the pending work of source 48 is withdrawn (R128, R129). -/
theorem State.Core.readFault {s : State} (rest : List FaultRecord) (hs : s.Core) :
    (s.readFault rest).Core := by
  have hview := (sameView_faults s { records := rest, overflow := false }).withdraw faultSource
  unfold State.readFault
  dsimp only
  split
  next hempty =>
    obtain ⟨hdeferral, hnone⟩ := withdraw_noPending hs.pool (src := faultSource) (by decide)
    have hpool := poolLaws_keptByPool.withdraw s faultSource hs.pool
    obtain ⟨t, ht⟩ : ∃ t, t = State.withdraw { s with faults := { records := rest, overflow := false } } faultSource :=
      ⟨_, rfl⟩
    have honly := withdraw_onlyPool { s with faults := { records := rest, overflow := false } } faultSource
    rw [← ht] at hview honly ⊢
    have hunfaulted : State.PoolLaws { t with faults := s.faults } :=
      poolLaws_keptByPool.congr _ hview.pool hview.attached hview.sources hview.faultLevel
        (fun hnil => by rw [(withdraw_onlyPool s faultSource).faults]; exact hnil) hpool
    refine State.Core.recompute ⟨⟨hunfaulted.sound, hunfaulted.ticket, hunfaulted.deferral, hunfaulted.oneWaiting,
      hunfaulted.oneRound, hunfaulted.post, hunfaulted.absent, fun _ => ⟨?_, fun i u hu => ?_⟩, hunfaulted.source⟩, ?_⟩
    · rw [hview.deferralOf, hdeferral]
    · rw [hview.ticketAt] at hu
      exact hnone i u hu
    · exact holdingLaw_of_undisturbed (s := s) (work_of_ports honly.ports)
        (ht ▸ Undisturbed.trans (t := { s with faults := { records := rest, overflow := false } })
          (undisturbed_of_pool rfl) (withdraw_undisturbed _ faultSource)) hs.holding
  next hne =>
    exact core_congr (s := s) rfl (fun _ => rfl) rfl rfl (fun hnil => absurd (List.isEmpty_iff.2 hnil) hne)
      (fun _ => rfl) hs

/-! ## The acts -/

/-- An extension leaves the ACTIVE entries as far as the law reads them. -/
theorem extend_holdingLaw {s : State} {h : Port} {e : Entry} {rest : List Entry} (expiry : Option Time) (n : Nat)
    (hstack : (s.port h).stack = e :: rest) (hs : s.HoldingLaw) :
    (s.setStack h ({ e with expiry := expiry, extensions := n } :: rest)).HoldingLaw := by
  obtain ⟨hserves, hone⟩ := hs
  refine ⟨fun g x hx hactive => ?_, fun i u hu g hw => ?_⟩
  · rw [State.setStack_port] at hx
    split at hx
    next hg =>
      subst hg
      rcases List.mem_cons.1 hx with rfl | hx
      · exact hserves g e (by simp [hstack]) hactive
      · exact hserves g x (by simp [hstack, hx]) hactive
    next => exact hserves g x hx hactive
  · rw [← hone i u hu g hw]
    unfold State.activeNaming
    rw [State.setStack_port]
    split
    next hg =>
      subst hg
      rw [hstack, List.countP_cons, List.countP_cons]
      rfl
    next => rfl

/-- A port replaced by one in the same state with the same stack changes nothing that the laws of the pool read. -/
theorem State.Core.setPort {s : State} {h : Port} {p : HostPort} (hstate : p.state = (s.port h).state)
    (hstack : p.stack = (s.port h).stack) (hs : s.Core) : (s.setPort h p).Core := by
  refine core_congr (s := s) rfl (setPort_attached hstate) rfl rfl id (fun g => ?_) hs
  rw [State.work, State.setPort_port]
  split
  next hg => rw [hstack, hg]; rfl
  next => rfl

/-- An occurrence with its recomputation keeps both, under the conditions of R98 and R127. -/
theorem State.Core.occurred {s : State} {src : SourceId} (p : BitVec 16) (hs : s.Core)
    (hroom : SourceId.posted src = true → s.liveCount src < Config.postLimit)
    (hfault : src = Machine.faultSource → s.faults.records ≠ []) : (s.occurrence src p).recompute.Core :=
  (hs.undisturbed (fun hpool => hpool.occurrence p hroom hfault) (occurrence_onlyPool s src p).ports
    (occurrence_undisturbed s src p)).recompute

/-- Every act keeps the laws of the pool and the work of the hosts. -/
theorem act_core {s t : State} (ha : Act s t) (hs : s.Core) : t.Core := by
  cases ha with
  | reset => exact reset_core _
  | link | deliver => exact hs.setPort rfl rfl
  | advance pins order held => exact (core_events.advanced s pins order held hs).recompute
  | expire chainOrder e => exact core_events.expiryRow (fun _ ht => ht.recompute) s chainOrder e hs
  | command hc =>
    cases hc with
    | answer => exact hs.setPort rfl rfl
    | join => exact hs.portJoined _
    | leave => exact hs.portLeft _
    | eject => exact hs.ejectPort _
    | threshold => exact State.Core.recompute (hs.setPort rfl rfl)
    | token => exact State.Core.recompute (core_congr (s := s) rfl (fun _ => rfl) rfl rfl id (fun _ => rfl) hs)
    | configure hr => exact hs.configured hr
    | flush => exact hs.flush
    | clearOverflow | setUpTimer | startTimer | stopTimer | loadTimer =>
      exact core_congr (s := s) rfl (fun _ => rfl) rfl rfl id (fun _ => rfl) hs
    | readFault => exact hs.readFault _
    | trigger hr =>
      have hlt := (triggerable_iff.1 hr).1
      exact hs.occurred 0 (fun hp => by rw [posted_of_lt hlt] at hp; cases hp)
        fun hf => absurd hf (ne_faultSource_of_lt hlt)
    | post payload hp hroom =>
      exact hs.occurred payload (fun _ => hroom) fun hf => absurd hf (ne_faultSource_of_posted hp)
    | claim ho hu => exact (claimTicket_core ho hu hs).recompute
    | popLapsed hstack he => exact (hs.popLapsed hstack he).recompute
    | retire hstack he => exact (hs.retireTicket hstack he).recompute
    | extend expiry n hstack =>
      exact ⟨poolLaws_keptByPool.setStack s _ _ hs.pool, extend_holdingLaw expiry n hstack hs.holding⟩

/-! ## All the laws -/

/-- All the laws, by the groups that are kept together. -/
theorem lawful_iff {s : State} :
    s.Lawful ↔ s.Core ∧ s.StackLaw ∧ s.TokenLaw ∧ s.DetachedLaw ∧ s.AttentionLaw ∧ s.TimerLaw ∧ s.FaultLaw := by
  constructor
  · intro h
    exact ⟨⟨⟨⟨h.order, h.noRoom⟩, h.ticket, h.deferral, h.oneWaiting, h.oneRound, h.post, h.absent, h.faultSource,
      h.source⟩, h.holding⟩, h.stack, h.token, h.detached, h.attention, h.timer, h.fault⟩
  · rintro ⟨⟨⟨⟨horder, hroom⟩, hticket, hdeferral, hwaiting, hround, hpost, habsent, hfaultSource, hsource⟩, hholding⟩,
      hstack, htoken, hdetached, hattention, htimer, hfault⟩
    exact ⟨horder, hroom, hticket, hdeferral, hwaiting, hround, hpost, hstack, hholding, htoken, hdetached, habsent,
      hattention, htimer, hfault, hfaultSource, hsource⟩

theorem act_lawful {s t : State} (ha : Act s t) (hs : s.Lawful) : t.Lawful := by
  obtain ⟨hcore, hstack, htoken, hdetached, hattention, htimer, hfault⟩ := lawful_iff.1 hs
  exact lawful_iff.2 ⟨act_core ha hcore, act_stackLaw ha hstack, act_tokenLaw ha htoken, act_detachedLaw ha hdetached,
    act_attention ha hattention, act_timerLaw ha htimer, act_faultLaw ha hfault⟩

/-- The laws do not look at the queue. -/
theorem lawful_pending {s : State} (q : List Instr) (hs : s.Lawful) : State.Lawful { s with pending := q } := by
  obtain ⟨hcore, hstack, htoken, hdetached, hattention, htimer, hfault⟩ := lawful_iff.1 hs
  exact lawful_iff.2 ⟨core_congr (s := s) rfl (fun _ => rfl) rfl rfl id (fun _ => rfl) hcore, hstack, htoken, hdetached,
    hattention, htimer, hfault⟩

/-- Settles O56: the laws do not look at the queue, and every act keeps them together. -/
theorem stepKeepsLawful : Obligations.StepKeepsLawful := fun _ _ hs hstep =>
  step_keeps (P := State.Lawful) (fun _ => lawful_pending) (fun _ _ => act_lawful) hs hstep

/-- Settles O55: the state after a reset is empty, and each law speaks of what is there. -/
theorem resetIsLawful : Obligations.ResetIsLawful := lawful_iff.2 ⟨reset_core [], reset_stackLaw [], nofun,
  reset_detachedLaw [], reset_attention [], reset_timerLaw [], Nat.zero_le _⟩

end Sys2Proof.Machine
end

section
/-! SUPPORT. The wire formats of the link: the check byte, the codes and argument bytes of the commands, and the bits of
a response (R132, R133, R143 to R145). -/

namespace Sys2Proof.Machine

/-! ## The check byte -/

/-- A bit through the register, as R133 says it. -/
theorem checkBit_eq (r : Byte) (b : Bool) :
    checkBit r b = (r <<< 1) ^^^ (if r.getLsbD 7 = b then 0 else 7) := by
  unfold checkBit
  dsimp only
  split
  · exact (BitVec.xor_zero).symm
  · rfl

/-- The bits of a register put through it leave nothing (R133). -/
theorem checkBit_foldl_self (r : Byte) : (byteBits r).foldl checkBit r = 0 := by
  revert r
  decide

/-- Settles O8: the register is that of R133 bit by bit, and its own bits clear it. -/
theorem checkByteLeavesZeroResidue : Obligations.CheckByteLeavesZeroResidue := by
  refine ⟨fun bytes => ?_, fun bytes => ?_⟩
  · have hregister : checkBit = fun (r : Byte) bit => (r <<< 1) ^^^ (if r.getLsbD 7 = bit then 0 else 7) :=
      funext fun r => funext fun b => checkBit_eq r b
    rw [checkByte, hregister]
    rfl
  · rw [checkByte, List.flatMap_append, List.foldl_append, ← checkByte, List.flatMap_singleton]
    exact checkBit_foldl_self _

/-! ## The codes of the commands -/

/-- A word argument is its two bytes, the most significant first (R143). -/
theorem argWord_eq (a : Args) (k : Nat) (h : k + 1 < 13) :
    argWord a k = look a ⟨k, by omega⟩ ++ look a ⟨k + 1, h⟩ := by
  have hbyte (j : Nat) (hj : j < 13) : a.toList.getD j 0 = look a ⟨j, hj⟩ := by
    simp [look, List.getD_eq_getElem?_getD, hj]
  rw [argWord, wordOf, hbyte k (by omega), hbyte (k + 1) h]

theorem word_of_bytes (w : BitVec 16) : highByte w ++ lowByte w = w := by
  unfold highByte lowByte
  rw [BitVec.extractLsb'_append_extractLsb'_eq_extractLsb' (by rfl)]
  exact BitVec.extractLsb'_eq_self

/-- A word argument of a command is read back from its two bytes. -/
theorem argWord_of_bytes {a : Args} {k : Nat} {w : BitVec 16} (hk : k + 1 < 13)
    (hhigh : look a ⟨k, by omega⟩ = highByte w) (hlow : look a ⟨k + 1, hk⟩ = lowByte w) : argWord a k = w := by
  rw [argWord_eq a k hk, hhigh, hlow, word_of_bytes]

/-- A code is read as no other command than its own (R145). -/
theorem code_of_decodeCommand {code : Byte} {a : Args} {c : Command} (h : decodeCommand code a = some c) :
    c.code = code := by
  unfold decodeCommand at h
  split at h
  case h_27 => cases h
  all_goals
    obtain rfl := Option.some.inj h
    exact BitVec.eq_of_toNat_eq (by simp_all [Command.code])

/-- A command is read back from its code and its argument bytes, whatever the bytes it does not use (R145). -/
theorem decodeCommand_of_args {c : Command} {a : Args}
    (h : ∀ k : Fin 13, k.val < c.argBytes.length → look a k = c.argBytes.getD k.val 0) :
    decodeCommand c.code a = some c := by
  cases c with
  | nop | attach | detach | status | time | lines | peek | claim | take | flush | faultRead => rfl
  | claimHandle w =>
    exact congrArg (fun w => some (Command.claimHandle w))
      (argWord_of_bytes (by decide) (h 0 (by decide : 0 < 2)) (h 1 (by decide : 1 < 2)))
  | retire w =>
    exact congrArg (fun w => some (Command.retire w))
      (argWord_of_bytes (by decide) (h 0 (by decide : 0 < 2)) (h 1 (by decide : 1 < 2)))
  | extend w =>
    exact congrArg (fun w => some (Command.extend w))
      (argWord_of_bytes (by decide) (h 0 (by decide : 0 < 2)) (h 1 (by decide : 1 < 2)))
  | threshold v => exact congrArg (fun b => some (Command.threshold b)) (h 0 (by decide : 0 < 1))
  | post src p =>
    exact congrArg₂ (fun b w => some (Command.post b w)) (h 0 (by decide : 0 < 3))
      (argWord_of_bytes (by decide) (h 1 (by decide : 1 < 3)) (h 2 (by decide : 2 < 3)))
  | timerSetup n m p r g k =>
    have hreload : argWord a 3 = r :=
      argWord_of_bytes (by decide) (h 3 (by decide : 3 < 7)) (h 4 (by decide : 4 < 7))
    have hn : look a 0 = n := h 0 (by decide : 0 < 7)
    have hm : look a 1 = m := h 1 (by decide : 1 < 7)
    have hp : look a 2 = p := h 2 (by decide : 2 < 7)
    have hg : look a 5 = g := h 5 (by decide : 5 < 7)
    have hk : look a 6 = k := h 6 (by decide : 6 < 7)
    change some (Command.timerSetup (look a 0) (look a 1) (look a 2) (argWord a 3) (look a 5) (look a 6)) = _
    rw [hn, hm, hp, hreload, hg, hk]
  | timerStart n => exact congrArg (fun b => some (Command.timerStart b)) (h 0 (by decide : 0 < 1))
  | timerStop n => exact congrArg (fun b => some (Command.timerStop b)) (h 0 (by decide : 0 < 1))
  | timerLoad n r =>
    exact congrArg₂ (fun b w => some (Command.timerLoad b w)) (h 0 (by decide : 0 < 3))
      (argWord_of_bytes (by decide) (h 1 (by decide : 1 < 3)) (h 2 (by decide : 2 < 3)))
  | timerRead n => exact congrArg (fun b => some (Command.timerRead b)) (h 0 (by decide : 0 < 1))
  | handover g => exact congrArg (fun b => some (Command.handover b)) (h 0 (by decide : 0 < 1))
  | eject g => exact congrArg (fun b => some (Command.eject b)) (h 0 (by decide : 0 < 1))
  | sourceSet src cfg =>
    have hlength : (Command.sourceSet src cfg).argBytes.length = 10 := by simp [Command.argBytes]
    refine congrArg₂ (fun b v => some (Command.sourceSet b v)) (h 0 (by rw [hlength]; decide))
      (table_ext fun i => ?_)
    have hi := h ⟨i.val + 1, by omega⟩ (by rw [hlength]; dsimp only; omega)
    rw [look_fill, hi]
    simp [Command.argBytes, look, List.getD_eq_getElem?_getD]
  | sourceRead src => exact congrArg (fun b => some (Command.sourceRead b)) (h 0 (by decide : 0 < 1))
  | trigger src => exact congrArg (fun b => some (Command.trigger b)) (h 0 (by decide : 0 < 1))

/-- The nine configuration bytes of a SOURCE_SET, one by one (R145). -/
theorem fill_config (a : Args) :
    (fill fun i : Fin 9 => look a ⟨i.val + 1, by omega⟩) =
      #v[look a 1, look a 2, look a 3, look a 4, look a 5, look a 6, look a 7, look a 8, look a 9] := rfl

/-- Settles O9: a code decides the row, and a row's bytes decide its arguments. -/
theorem commandDecodeInvertsEncode : Obligations.CommandDecodeInvertsEncode := by
  refine ⟨fun c => decodeCommand_of_args fun k _ => look_fill _ k, fun c a h => decodeCommand_of_args h,
    fun code a c h => code_of_decodeCommand h, fun code a h tag => ?_⟩
  have hword0 := argWord_eq a 0 (by decide)
  have hword1 := argWord_eq a 1 (by decide)
  have hword3 := argWord_eq a 3 (by decide)
  unfold decodeCommand
  rw [hword0, hword1, hword3, fill_config]
  generalize code.toNat = n
  split
  -- A code that is none of the 26 is no row of the table.
  case h_27 => simp only [Option.map_none, *]
  all_goals rfl

/-! ## The bits of a response -/

/-- The bits of a stream of bytes: byte 0 first, and bit 7 of a byte first (R132, R143). -/
theorem getD_flatMap_byteBits (bytes : List Byte) (k : Nat) :
    (bytes.flatMap byteBits).getD k false = (bytes.getD (k / 8) 0).getLsbD (7 - k % 8) := by
  induction bytes generalizing k with
  | nil => simp
  | cons b bs ih =>
    have hlength : (byteBits b).length = 8 := rfl
    rw [List.flatMap_cons]
    by_cases hk : k < 8
    · rw [List.getD_append _ _ _ _ (by omega), Nat.div_eq_of_lt hk, Nat.mod_eq_of_lt hk]
      interval_cases k <;> rfl
    · obtain ⟨j, rfl⟩ : ∃ j, k = j + 8 := ⟨k - 8, by omega⟩
      rw [List.getD_append_right _ _ _ _ (by omega), hlength, Nat.add_sub_cancel, ih, Nat.add_div_right _ (by decide),
        Nat.add_mod_right, List.getD_cons_succ]

theorem length_flatMap_byteBits (bytes : List Byte) : (bytes.flatMap byteBits).length = 8 * bytes.length := by
  induction bytes with
  | nil => rfl
  | cons b bs ih =>
    rw [List.flatMap_cons, List.length_append, ih, List.length_cons]
    change 8 + _ = _
    ring

/-- A response is 16 bytes (R143). -/
theorem response_length (r : Response) : r.bytes.length = 16 := by
  simp [Response.bytes, responseBody]

/-- The port flags byte as a number (R143). -/
theorem flagsByte_eq (f : PortFlags) (h : f.depth ≤ 4) :
    f.byte = BitVec.ofNat 8
      ((if f.attached then 128 else 0) + (if f.token then 64 else 0) + (if f.offer then 32 else 0)
        + (if f.flushed then 16 else 0) + (if f.ejected then 8 else 0) + f.depth) := by
  obtain ⟨attached, token, offer, flushed, ejected, depth⟩ := f
  obtain ⟨d, rfl⟩ : ∃ d : Fin 5, depth = d.val := ⟨⟨depth, Nat.lt_succ_of_le h⟩, rfl⟩
  clear h
  revert attached token offer flushed ejected d
  decide

/-- The bits SDO sends over a number of edges: those of the captured response, and zeros after them (R132). -/
theorem sentBits_getD (r : Response) {n k : Nat} (hk : k < n) :
    (sentBits r n).getD k true = if k < 128 then (r.bytes.getD (k / 8) 0).getLsbD (7 - k % 8) else false := by
  have hlength : (r.bytes.flatMap byteBits).length = 128 := by rw [length_flatMap_byteBits, response_length]
  rw [sentBits, List.getD_eq_getElem?_getD, List.getElem?_take_of_lt hk]
  split
  next hlt =>
    rw [List.getElem?_append_left (by omega), ← getD_flatMap_byteBits, List.getD_eq_getElem?_getD,
      List.getElem?_eq_getElem (by omega)]
    rfl
  next hge =>
    rw [List.getElem?_append_right (by omega), hlength, List.getElem?_replicate, if_pos (by simp [Config.frameBits]; omega)]
    rfl

theorem sentBits_length (r : Response) (n : Nat) : (sentBits r n).length = n := by
  rw [sentBits, List.length_take, List.length_append, length_flatMap_byteBits, response_length, List.length_replicate]
  simp only [Config.frameBits]
  omega

/-! ## The incoming bytes -/

/-- A byte put together from eight bits, bit 7 first (R143). -/
theorem getLsbD_byteOfBits (bits : List Bool) {j : Nat} (hj : j < 8) :
    (byteOfBits bits).getLsbD j = bits.getD (7 - j) false := by
  have hfold (l : List Nat) (acc : Byte) :
      (l.foldl (fun acc k => acc ||| bitAt (7 - k) (bits.getD k false)) acc).getLsbD j =
        (acc.getLsbD j || l.any fun k => decide (j = 7 - k) && bits.getD k false) := by
    induction l generalizing acc with
    | nil => simp
    | cons k l ih =>
      rw [List.foldl_cons, ih, BitVec.getLsbD_or, getLsbD_bitAt _ _ _ hj, List.any_cons, Bool.or_assoc]
  rw [byteOfBits, hfold]
  have hzero : (0 : Byte).getLsbD j = false := by simp
  rw [hzero, Bool.false_or]
  interval_cases j <;> simp [List.range_succ]

/-- The bits of a stream are read as bytes, byte 0 first and bit 7 first (R132). -/
theorem inWireOrder (bits : List Bool) : InWireOrder bits := by
  refine ⟨rfl, fun k j => ?_⟩
  have hj := j.isLt
  rw [streamByte, getLsbD_byteOfBits _ hj, List.getD_eq_getElem?_getD, List.getElem?_take_of_lt (by omega),
    List.getElem?_drop, ← List.getD_eq_getElem?_getD]

theorem frameBytes_getD (bits : List Bool) {k : Nat} (hk : k < 16) :
    (frameBytes bits).getD k 0 = streamByte bits k := by
  rw [frameBytes, List.getD_eq_getElem?_getD, List.getElem?_map, List.getElem?_range hk]
  rfl

theorem look_frameArgs (bits : List Bool) (k : Fin 13) :
    look (frameArgs (frameBytes bits)) k = streamByte bits (k.val + 2) := by
  rw [frameArgs, look_fill, frameBytes_getD bits (by omega)]

end Sys2Proof.Machine
end

section
/-! SUPPORT. The edges of a select, the judgement of a transaction, and the reset of the part (R3, R131 to R139). -/

namespace Sys2Proof.Machine

/-! ## Reset -/

theorem reset_offer (q : List Instr) (h : Port) : State.offer { State.reset with pending := q } h = none := by
  simp [State.offer, State.pendingOrder, State.reset]

/-- The response of R131 carries its own check byte. -/
theorem responseReset_check : Response.reset.check = checkByte (Response.reset.bytes.take 15) := by
  have hbody : Response.reset.bytes.take 15 = List.replicate 15 0 := by
    rw [Response.bytes, List.take_left' (by simp [responseBody])]
    decide
  rw [hbody, Response.reset]

/-- The response slot of a port after reset is the response of R131. -/
theorem reset_answered (q : List Instr) (h : Port) : State.Answered { State.reset with pending := q } h 0 .none [] := by
  have hattached : State.attached { State.reset with pending := q } h = false := by
    rw [State.attached, reset_port]
    rfl
  have hflags : State.portFlags { State.reset with pending := q } h = PortFlags.reset := by
    unfold State.portFlags
    rw [hattached, reset_port, reset_offer]
    rfl
  have hslot : (State.port { State.reset with pending := q } h).link.slot = Response.reset := by
    rw [reset_port]
    rfl
  unfold State.Answered
  rw [hflags, hslot]
  exact ⟨rfl, rfl, fun k => look_replicate 0 k, rfl, responseReset_check⟩

/-- Settles O2: the reset state read record by record. -/
theorem deviceResetRestoresResetValues : Obligations.DeviceResetRestoresResetValues := by
  intro s
  have hline (n : LineId) : State.line { State.reset with pending := s.pending } n =
      { recognised := false, run := 0, sampled := false, sampleDue := false } := look_replicate _ n
  have hsource (src : SourceId) (hne : src ≠ faultSource) :
      State.config { State.reset with pending := s.pending } src = SourceRecord.reset := by
    have hlt : src.val < 48 := by
      by_contra hge
      exact hne (eq_faultSource_of_not_lt hge)
    rw [State.config, dif_pos hlt]
    exact look_replicate SourceRecord.reset _
  refine ⟨_, rfl, rfl, rfl, rfl, rfl, rfl, rfl, rfl, fun i => look_replicate _ i,
    fun src => ⟨look_replicate _ src, ?_⟩, hsource, fun n => ?_, fun n => look_replicate _ n, fun h => ?_⟩
  · by_cases hsrc : src = faultSource
    · rw [hsrc]
      rfl
    · rw [hsource src hsrc]
      rfl
  · rw [hline]
    exact ⟨rfl, rfl, rfl⟩
  · refine ⟨?_, ?_, ?_, ?_, ?_, ?_, reset_offer _ h, ?_, reset_answered _ h⟩ <;> rw [reset_port] <;> rfl

/-! ## The edges of a select -/

/-- An answer at a port that was replaced leaves that port with the response. -/
theorem answer_setPort (s : State) (h : Port) (p : HostPort) (tag : Byte) (st : Status) (d : List Byte) :
    (s.setPort h p).answer h tag st d =
      s.setPort h
        { p with link := { p.link with slot := (((s.setPort h p).answer h tag st d).port h).link.slot } } := by
  rw [answer_slot]
  unfold State.answer
  rw [State.setPort_port_same]
  unfold State.setPort
  dsimp only
  rw [place_place]

/-- The state in which the transaction that port h shifted over n edges has ended, and its captured content has been
delivered if it was shifted out whole (R134, R137). -/
def State.transactionOver (s : State) (h : Port) (captured : Response) (n : Nat) : State :=
  s.setPort h
    { s.port h with
      flushed := if 128 ≤ n then (s.port h).flushed && !captured.flags.flushed else (s.port h).flushed
      ejected := if 128 ≤ n then (s.port h).ejected && !captured.flags.ejected else (s.port h).ejected
      link := { slot := (s.port h).link.slot, progress := .idle, sinceRise := 0
                shiftedOut := sentBits captured n } }

theorem transactionOver_port (s : State) (h : Port) (captured : Response) (n : Nat) :
    ((s.transactionOver h captured n).port h).link =
      { slot := (s.port h).link.slot, progress := .idle, sinceRise := 0, shiftedOut := sentBits captured n } := by
  rw [State.transactionOver, State.setPort_port_same]

/-- The rise that ends a transaction delivers the captured content, and the bits are judged (R134, R137). -/
theorem exec_transactionEnd_of_shifting {s : State} {h : Port} {captured : Response} {received : List Bool}
    (hp : (s.port h).link.progress = .shifting captured received) (sdi : List Bool) :
    exec (.transactionEnd h sdi) s =
      (s.transactionOver h captured (received.length + sdi.length)).judge h (received ++ sdi) := by
  change execTransactionEnd h sdi s = _
  unfold execTransactionEnd
  rw [hp]
  dsimp only
  rw [List.length_append]
  congr 1
  unfold State.transactionOver State.selectRisen State.setLink Config.frameBits
  split
  · unfold State.deliver
    rw [State.setPort_port_same]
    unfold State.setPort
    dsimp only
    rw [place_place]
  · rfl

/-! ## The judgement -/

section
variable {s : State} {h : Port} {bits : List Bool}

/-- A transaction of any edge count but 128 is a FRAME_ERROR (R134). -/
theorem judge_of_count (hcount : bits.length ≠ Config.frameBits) : s.judge h bits = .next (s.answer h 0 .frameError []) :=
  if_pos hcount

/-- A transaction whose check byte does not match is a BAD_CHECK (R134). -/
theorem judge_of_badCheck (hcount : bits.length = Config.frameBits)
    (hcheck : checkByte ((frameBytes bits).take 15) ≠ (frameBytes bits).getD 15 0) :
    s.judge h bits = .next (s.answer h (streamByte bits 1) .badCheck []) := by
  rw [← frameBytes_getD bits (by decide : 1 < 16)]
  unfold State.judge
  dsimp only
  rw [if_neg (not_ne_iff.2 hcount), if_pos hcheck]

/-- A transaction with a code that is no command's is UNKNOWN (R134). -/
theorem judge_of_unknown (hcount : bits.length = Config.frameBits)
    (hcheck : checkByte ((frameBytes bits).take 15) = (frameBytes bits).getD 15 0)
    (hcode : decodeCommand (streamByte bits 0) (frameArgs (frameBytes bits)) = none) :
    s.judge h bits = .next (s.answer h (streamByte bits 1) .unknown []) := by
  rw [← frameBytes_getD bits (by decide : 0 < 16)] at hcode
  rw [← frameBytes_getD bits (by decide : 1 < 16)]
  unfold State.judge
  dsimp only
  rw [if_neg (not_ne_iff.2 hcount), if_neg (not_ne_iff.2 hcheck), hcode]

/-- A transaction with the code of a command is taken as that command's row takes it, which at a DETACHED port is
the refusal of all but five (R134, R139). -/
theorem judge_of_command {c : Command} (hcount : bits.length = Config.frameBits)
    (hcheck : checkByte ((frameBytes bits).take 15) = (frameBytes bits).getD 15 0)
    (hcode : decodeCommand (streamByte bits 0) (frameArgs (frameBytes bits)) = some c) :
    s.judge h bits = exec (c.toInstr h (streamByte bits 1)) s := by
  rw [← frameBytes_getD bits (by decide : 0 < 16)] at hcode
  rw [← frameBytes_getD bits (by decide : 1 < 16)]
  unfold State.judge
  dsimp only
  rw [if_neg (not_ne_iff.2 hcount), if_neg (not_ne_iff.2 hcheck), hcode]
  dsimp only
  split
  next hrefused =>
    obtain ⟨hdetached, hclosed⟩ := hrefused
    have hstate : (s.port h).state = .detached := by
      cases hp : (s.port h).state with
      | detached => rfl
      | attached => simp [State.attached, hp] at hdetached
    have hnot : c.code.toNat ∉ [0x00, 0x01, 0x03, 0x04, 0x05] := by
      cases c with
      | nop | attach | status | time | lines => cases hclosed
      | _ => simp [Command.code]
    obtain ⟨run, hexec⟩ := exec_eq_ifAttached hnot h ((frameBytes bits).getD 1 0) s
    rw [hexec, ifAttached_of_detached hstate]
  next => exact (exec_toInstr c h _ s).symm

end

/-! ## The edges outside a transaction, and the transactions that take no command -/

/-- Settles O3: the progress of the port's transaction selects the row of each edge. -/
theorem selectEdgesOutsideTransaction : Obligations.SelectEdgesOutsideTransaction := by
  intro h s
  refine ⟨?_, fun sdi hout => ?_⟩
  · cases hp : (s.port h).link.progress with
    | awaitHigh | idle =>
      refine ⟨_, rfl, fun _ => ?_, ?_⟩
      · rw [hp]
        rfl
      · simp
    | shifting captured received =>
      refine ⟨_, rfl, ?_, fun _ _ => ?_⟩
      · simp
      · rw [hp]
    | unseen =>
      refine ⟨_, rfl, ?_, fun _ _ => ?_⟩
      · simp
      · rw [hp]
  · have hexec : exec (.transactionEnd h sdi) s = execTransactionEnd h sdi s := rfl
    rw [hexec, execTransactionEnd]
    cases hp : (s.port h).link.progress with
    | awaitHigh => exact ⟨_, rfl, fun _ => rfl, nofun, nofun⟩
    | idle => exact ⟨_, rfl, nofun, fun _ => rfl, nofun⟩
    | shifting captured received => exact absurd hp (hout captured received)
    | unseen => exact ⟨_, rfl, nofun, nofun, fun _ => ⟨answer_setPort .., answered_answer ..⟩⟩

/-- An answer after a transaction changes the response slot alone. -/
theorem answer_transactionOver (s : State) (h : Port) (captured : Response) (n : Nat) (tag : Byte) (st : Status) :
    (s.transactionOver h captured n).answer h tag st [] =
      s.setPort h
        { s.port h with
          flushed := if 128 ≤ n then (s.port h).flushed && !captured.flags.flushed else (s.port h).flushed
          ejected := if 128 ≤ n then (s.port h).ejected && !captured.flags.ejected else (s.port h).ejected
          link :=
            { slot := (((s.transactionOver h captured n).answer h tag st []).port h).link.slot
              progress := .idle, sinceRise := 0
              shiftedOut := (((s.transactionOver h captured n).answer h tag st []).port h).link.shiftedOut } } := by
  have hsent : (((s.transactionOver h captured n).answer h tag st []).port h).link.shiftedOut =
      sentBits captured n := by
    rw [State.answer_port, if_pos rfl, transactionOver_port]
  rw [hsent]
  exact answer_setPort ..

/-- Settles O4: a transaction of another edge count is judged by its count alone. -/
theorem wrongEdgeCountIsFrameError : Obligations.WrongEdgeCountIsFrameError := by
  intro h sdi received captured s hp hcount
  refine ⟨_, (exec_transactionEnd_of_shifting hp sdi).trans
    (judge_of_count (by rwa [List.length_append])), ?_, answered_answer ..⟩
  have habove : (128 < received.length + sdi.length) ↔ 128 ≤ received.length + sdi.length := by omega
  simp only [habove]
  exact answer_transactionOver ..

/-- A code that is not in the table of R145 is no command's. -/
theorem decodeCommand_eq_none {code : Byte} (a : Args)
    (hcode : code.toNat ∉
      [0x00, 0x01, 0x02, 0x03, 0x04, 0x05, 0x10, 0x11, 0x12, 0x13, 0x14, 0x15, 0x16, 0x20, 0x21, 0x22, 0x23,
        0x24, 0x30, 0x31, 0x32, 0x33, 0x34, 0x35, 0x36, 0x37]) : decodeCommand code a = none := by
  cases hc : decodeCommand code a with
  | none => rfl
  | some c =>
    have hof := code_of_decodeCommand hc
    subst hof
    cases c <;> simp [Command.code] at hcode

/-- Settles O5: the check byte, and then the code, select the answer, and the content has been delivered. -/
theorem corruptOrUnknownFrameTakesNoCommand : Obligations.CorruptOrUnknownFrameTakesNoCommand := by
  refine ⟨inWireOrder, fun h bits captured s hp hcount hbad => ?_⟩
  have hjudged : exec (.transactionEnd h bits) s = .next ((s.transactionOver h captured 128).answer h (streamByte bits 1)
      (if checkByte ((frameBytes bits).take 15) = (frameBytes bits).getD 15 0 then .unknown else .badCheck) []) := by
    rw [exec_transactionEnd_of_shifting hp, List.nil_append, List.length_nil, Nat.zero_add, hcount]
    split
    next hcheck =>
      exact judge_of_unknown hcount hcheck (decodeCommand_eq_none _ (hbad.resolve_left (not_not.2 hcheck)))
    next hcheck => exact judge_of_badCheck hcount hcheck
  exact ⟨_, hjudged, answer_transactionOver .., answered_answer ..⟩

/-! ## The transactions that take a command -/

/-- Over 128 edges SDO sends the captured response and nothing else (R132). -/
theorem sentBits_whole (r : Response) : sentBits r 128 = r.bytes.flatMap byteBits := by
  have hlength : (r.bytes.flatMap byteBits).length = 128 := by rw [length_flatMap_byteBits, response_length]
  rw [sentBits, Config.frameBits, Nat.sub_self, List.replicate_zero, List.append_nil, ← hlength, List.take_length]

/-- Settles O6: the code and the argument bytes decide the command, whose row runs after the delivery. -/
theorem goodFrameTakesItsCommand : Obligations.GoodFrameTakesItsCommand := by
  refine ⟨inWireOrder, fun h bits c captured s hp hcount hcheck hcode hargs => ?_⟩
  have hdecode : decodeCommand (streamByte bits 0) (frameArgs (frameBytes bits)) = some c := by
    rw [hcode]
    exact decodeCommand_of_args fun k hk => by rw [look_frameArgs, hargs k hk]
  have htaken : exec (.transactionEnd h bits) s =
      exec (c.toInstr h (streamByte bits 1)) (s.transactionOver h captured 128) := by
    rw [exec_transactionEnd_of_shifting hp, List.nil_append, List.length_nil, Nat.zero_add, hcount]
    exact judge_of_command hcount hcheck hdecode
  obtain ⟨t, hnext, -⟩ := exec_acts (c.toInstr h (streamByte bits 1)) (s.transactionOver h captured 128)
  refine ⟨t, htaken.trans hnext, ?_⟩
  rw [← sentBits_whole]
  exact hnext

/-! ## The serial side of a port under a command -/

/-- From s to t the serial side of every port stays but for its response slot. -/
def SameSerial (s t : State) : Prop :=
  ∀ g : Port, (t.port g).link = { (s.port g).link with slot := (t.port g).link.slot }

theorem SameSerial.trans {s t u : State} (h1 : SameSerial s t) (h2 : SameSerial t u) : SameSerial s u := fun g => by
  rw [h2 g, h1 g]

theorem sameSerial_of_link {s t : State} (h : ∀ g, (t.port g).link = (s.port g).link) : SameSerial s t := fun g => by
  rw [h g]

theorem sameSerial_of_ports {s t : State} (h : t.ports = s.ports) : SameSerial s t :=
  sameSerial_of_link fun g => by rw [State.port, State.port, h]

theorem SameSerial.recompute {s t : State} (h : SameSerial s t) : SameSerial s t.recompute := fun g => by
  rw [recompute_port]
  exact h g

/-- A port replaced by one with the same serial side but for the response slot. -/
theorem sameSerial_setPort {s : State} {h : Port} {p : HostPort}
    (hp : p.link = { (s.port h).link with slot := p.link.slot }) : SameSerial s (s.setPort h p) := fun g => by
  rw [State.setPort_port]
  split
  next hg => rw [hg]; exact hp
  next => rfl

/-- No act of a command touches the serial side of a port, but for the response slot of the port it answers at. -/
theorem commandAct_serial {s t : State} (hc : CommandAct s t) : SameSerial s t := by
  cases hc with
  | answer | extend =>
    refine sameSerial_setPort ?_
    rfl
  | join | threshold | popLapsed =>
    refine (sameSerial_setPort ?_).recompute
    rfl
  | leave =>
    refine sameSerial_of_link fun g => ?_
    rw [portLeft_port, depart_port]
    split
    next hg => rw [hg]
    next => rfl
  | eject =>
    refine sameSerial_of_link fun g => ?_
    rw [ejectPort_port, depart_port]
    split
    next hg => rw [hg]
    next => rfl
  | token => exact sameSerial_of_link fun g => by rw [recompute_port]; rfl
  | configure => exact (sameSerial_of_ports (configured_ports ..)).recompute
  | flush => exact sameSerial_of_link fun g => by rw [flush_port, emptied_port]
  | clearOverflow | setUpTimer | startTimer | stopTimer | loadTimer => exact sameSerial_of_ports rfl
  | readFault => exact sameSerial_of_link fun g => by rw [readFault_port]; split <;> rfl
  | trigger | post => exact (sameSerial_of_ports (occurrence_onlyPool s _ _).ports).recompute
  | @claim h i u =>
    refine SameSerial.recompute fun g => ?_
    rw [State.claimTicket, State.setStack_port]
    split
    next hg => rw [hg]; rfl
    next => rfl
  | @retire h e rest =>
    refine SameSerial.recompute (SameSerial.trans (t := s.setStack h rest) (sameSerial_setPort rfl) ?_)
    exact sameSerial_of_ports (retireTicket_onlyPool _ h e.handle).ports

theorem commandActs_serial {s t : State} (hc : CommandActs s t) : SameSerial s t := by
  induction hc with
  | refl => exact sameSerial_of_ports rfl
  | tail _ ha ih => exact ih.trans (commandAct_serial ha)

/-- Settles O7: the bytes of a response field by field; the bits SDO sent are noted at the rise, and the command that
the transaction carries leaves them. -/
theorem shiftedOutIsCapturedSlot : Obligations.ShiftedOutIsCapturedSlot := by
  refine ⟨fun r hdepth => ?_, fun h sdi received captured s hp => ?_⟩
  · rw [Response.bytes, responseBody, flagsByte_eq r.flags hdepth, List.cons_append, List.cons_append, List.append_assoc]
    refine congrArg (· :: _) ?_
    cases r.status <;> rfl
  · obtain ⟨t, hnext, hacts⟩ := judge_acts (s.transactionOver h captured (received.length + sdi.length)) h
      (received ++ sdi)
    have hlink := commandActs_serial hacts h
    rw [transactionOver_port] at hlink
    refine ⟨t, (exec_transactionEnd_of_shifting hp sdi).trans hnext, by rw [hlink], ?_, fun k hk => ?_⟩
    · rw [hlink]
      exact sentBits_length ..
    · rw [hlink]
      exact sentBits_getD captured hk
end Sys2Proof.Machine
end

section
/-! SUPPORT. STATUS, and the claims that take nothing (R50, R55, R142). -/

namespace Sys2Proof.Machine

/-! ## STATUS -/

/-- Byte 0 of a STATUS response as a number (R147). -/
theorem statusByte_eq (attached offer : Bool) {depth : Nat} (h : depth ≤ 4) :
    (bitAt 7 attached ||| bitAt 5 offer ||| (byteOf depth &&& 0x07#8)) =
      BitVec.ofNat 8 ((if attached then 128 else 0) + (if offer then 32 else 0) + depth) := by
  obtain ⟨d, rfl⟩ : ∃ d : Fin 5, depth = d.val := ⟨⟨depth, Nat.lt_succ_of_le h⟩, rfl⟩
  clear h
  revert attached offer d
  decide

/-- The data of a STATUS response, byte by byte (R142, R147). -/
theorem statusReport_eq {s : State} (hs : s.StackLaw) (h : Port) :
    s.statusReport h =
      [BitVec.ofNat 8 ((if (s.port h).state = .attached then 128 else 0)
          + (if (s.offer h).isSome then 32 else 0) + (s.port h).stack.length),
       BitVec.ofNat 8 (s.port h).threshold.val,
       BitVec.ofNat 8 (((s.port h).stack.head?.map fun e => e.level.val).getD 0),
       (s.token.map fun g => BitVec.ofNat 8 g.val).getD 0xFF#8,
       BitVec.ofNat 8 ((List.finRange 64).countP fun i => (s.ticketAt i).isNone),
       BitVec.ofNat 8 ((List.finRange 49).countP fun src => (s.deferralOf src).isSome),
       BitVec.ofNat 8 s.faults.records.length] := by
  unfold State.statusReport
  dsimp only
  rw [statusByte_eq _ _ (hs h).1, portByte_eq, serviceLevel_val]
  simp only [State.attached, decide_eq_true_eq]
  rfl

/-- Settles O12: STATUS is one answer to an unchanged state, with no check of attachment before it. -/
theorem statusReportsStanding : Obligations.StatusReportsStanding := by
  intro h tag s hs
  rw [← statusReport_eq hs]
  exact ⟨_, rfl, onlyAnswers_answer .., answered_answer ..⟩

/-! ## Claims that take nothing -/

section
variable {s : State} {h : Port} (ha : (s.port h).state = .attached)
include ha

/-- A claim with a full stack is refused before the offer is looked at (R50). -/
theorem exec_claim_of_full (hf : 4 ≤ (s.port h).stack.length) (tag : Byte) :
    exec (.claim h tag) s = .next (s.answer h tag .stackFull []) := by
  simp [exec, execClaim, ifAttached_of_attached ha, Config.stackDepth, hf]

theorem exec_claimHandle_of_full (hf : 4 ≤ (s.port h).stack.length) (tag : Byte) (word : BitVec 16) :
    exec (.claimHandle h tag word) s = .next (s.answer h tag .stackFull []) := by
  simp [exec, execClaimHandle, ifAttached_of_attached ha, Config.stackDepth, hf]

/-- CLAIM without an offer is answered EMPTY (R50). -/
theorem exec_claim_of_noOffer (hr : (s.port h).stack.length < 4) (hn : s.offer h = none) (tag : Byte) :
    exec (.claim h tag) s = .next (s.answer h tag .empty []) := by
  simp [exec, execClaim, ifAttached_of_attached ha, Config.stackDepth, hr.not_ge, hn]

/-- CLAIM_HANDLE with a word that does not name the offer is answered GONE (R55). -/
theorem exec_claimHandle_of_gone (hr : (s.port h).stack.length < 4) {word : BitVec 16}
    (hw : ∀ i ∈ s.offer h, handleOfWord word ≠ some (s.handleOf i)) (tag : Byte) :
    exec (.claimHandle h tag word) s = .next (s.answer h tag .gone []) := by
  cases ho : s.offer h with
  | none => simp [exec, execClaimHandle, ifAttached_of_attached ha, Config.stackDepth, hr.not_ge, ho]
  | some i =>
    simp [exec, execClaimHandle, ifAttached_of_attached ha, Config.stackDepth, hr.not_ge, ho, hw i ho]

end

/-- Settles O20: the stack is looked at first, and then the offer. -/
theorem claimThatTakesNothing : Obligations.ClaimThatTakesNothing := by
  intro h tag word s ha
  refine ⟨fun hf => ⟨?_, ?_⟩, fun hr => ⟨fun hn => ?_, fun hw => ?_⟩⟩
  · exact ⟨_, exec_claim_of_full ha hf tag, onlyAnswers_answer .., answered_answer ..⟩
  · exact ⟨_, exec_claimHandle_of_full ha hf tag word, onlyAnswers_answer .., answered_answer ..⟩
  · exact ⟨_, exec_claim_of_noOffer ha hr hn tag, onlyAnswers_answer .., answered_answer ..⟩
  · exact ⟨_, exec_claimHandle_of_gone ha hr hw tag, onlyAnswers_answer .., answered_answer ..⟩

end Sys2Proof.Machine
end

section
/-! SUPPORT. The top entry of a stack: RETIRE and EXTEND (R67 to R77). -/

namespace Sys2Proof.Machine

/-! ## The reports of an entry -/

/-- A handle word names a handle by its slot and generation, with its low bits 0 (R144). -/
theorem handleOfWord_eq_some {word : BitVec 16} {hd : Handle} :
    handleOfWord word = some hd ↔ word.toNat = wireWord hd 0 := by
  obtain ⟨slot, generation⟩ := hd
  have hword := word.isLt
  have hslot := slot.isLt
  have hgeneration := generation.isLt
  have hlow : (word.extractLsb' 0 6).toNat = word.toNat % 64 := by simp
  have hmiddle : (word.extractLsb' 6 4).toNat = word.toNat / 64 % 16 := by
    simp [BitVec.extractLsb'_toNat, Nat.shiftRight_eq_div_pow]
  have hhigh : (word.extractLsb' 10 6).toNat = word.toNat / 1024 % 64 := by
    simp [BitVec.extractLsb'_toNat, Nat.shiftRight_eq_div_pow]
  have hzero : word.extractLsb' 0 6 = 0 ↔ word.toNat % 64 = 0 := by
    rw [← hlow]
    exact ⟨fun h => by rw [h]; rfl, fun h => BitVec.eq_of_toNat_eq h⟩
  unfold handleOfWord wireWord
  split
  next h =>
    rw [hzero] at h
    rw [Option.some.injEq, Handle.mk.injEq, Fin.ext_iff, Fin.ext_iff]
    change (word.extractLsb' 10 6).toNat = slot.val ∧ (word.extractLsb' 6 4).toNat = generation.val ↔ _
    rw [hmiddle, hhigh]
    dsimp only
    omega
  next h =>
    rw [hzero] at h
    simp only [reduceCtorEq, false_iff]
    omega

/-- The entry report of the top entry, byte by byte (R147). -/
theorem topReport_eq (e : Entry) :
    topReport e =
      bytesOf16 (wireWord e.handle e.source.val)
        ++ [BitVec.ofNat 8 (e.level.val + if e.state = .lapsed then 16 else 0), 0] := by
  have hbyte (l : Fin 16) (b : Bool) :
      (byteOf l.val ||| bitAt 4 b) = BitVec.ofNat 8 (l.val + if b then 16 else 0) := by
    revert l b
    decide
  unfold topReport
  rw [wordBytes_handleWord _ (by omega), hbyte]
  simp only [decide_eq_true_eq]

/-- The entry report of a popped entry, byte by byte (R147). -/
theorem popReport_eq (e : Entry) (freed : Bool) (levelAfter : Fin 16) :
    popReport e freed levelAfter =
      bytesOf16 (wireWord e.handle e.source.val)
        ++ [BitVec.ofNat 8 (e.level.val + if freed then 32 else 0), BitVec.ofNat 8 levelAfter.val] := by
  have hbyte (l : Fin 16) (b : Bool) :
      (byteOf l.val ||| bitAt 5 b) = BitVec.ofNat 8 (l.val + if b then 32 else 0) := by
    revert l b
    decide
  unfold popReport
  rw [wordBytes_handleWord _ (by omega), hbyte]
  rfl

/-! ## The cases of RETIRE -/

section
variable {s : State} {h : Port} {e : Entry} {rest : List Entry} {word : BitVec 16}
  (ha : (s.port h).state = .attached)
include ha

/-- RETIRE with an empty stack is answered NOTHING_HELD (R68). -/
theorem exec_retire_of_empty (hs : (s.port h).stack = []) (tag : Byte) (word : BitVec 16) :
    exec (.retire h tag word) s = .next (s.answer h tag .nothingHeld []) := by
  simp [exec, execRetire, ifAttached_of_attached ha, hs]

variable (hs : (s.port h).stack = e :: rest)
include hs

/-- RETIRE with a word that does not name the top entry reports that entry (R68). -/
theorem exec_retire_of_mismatch (hw : handleOfWord word ≠ some e.handle) (tag : Byte) :
    exec (.retire h tag word) s = .next (s.answer h tag .mismatch (topReport e)) := by
  simp [exec, execRetire, ifAttached_of_attached ha, hs, hw]

variable (hw : handleOfWord word = some e.handle)
include hw

/-- RETIRE of a LAPSED entry takes it off the stack (R71). -/
theorem exec_retire_of_lapsed (hl : e.state = .lapsed) (tag : Byte) :
    exec (.retire h tag word) s =
      .next ((s.setStack h rest).recompute.answer h tag .tooLate
        (popReport e false ((s.setStack h rest).recompute.serviceLevel h))) := by
  simp [exec, execRetire, ifAttached_of_attached ha, hs, hw, hl]

/-- RETIRE of an ACTIVE entry takes it off the stack and deals with its ticket (R69, R70). -/
theorem exec_retire_of_active (hactive : e.state = .active) (tag : Byte) :
    exec (.retire h tag word) s =
      .next (((s.setStack h rest).retireTicket h e.handle).recompute.answer h tag .ok
        (popReport e (s.retirementFrees h e.handle)
          (((s.setStack h rest).retireTicket h e.handle).recompute.serviceLevel h))) := by
  simp [exec, execRetire, ifAttached_of_attached ha, hs, hw, hactive]

end

/-- The service level of a host whose stack was replaced, if nothing but the pool has changed since. -/
theorem serviceLevel_setStack {s t : State} {h : Port} {es : List Entry} (ht : OnlyPool (s.setStack h es) t) :
    (t.recompute.serviceLevel h).val = (es.head?.map fun e => e.level.val).getD 0 := by
  rw [serviceLevel_val, recompute_port, ht.port, State.setStack_port, if_pos rfl]

/-- A row that replaces a stack, changes the pool beside it and answers, leaves the ports so. -/
theorem portsBecome_setStack {s u : State} {h : Port} {es : List Entry} (tag : Byte) (st : Status) (d : List Byte)
    (hu : OnlyPool (s.setStack h es) u) :
    PortsBecome s (u.recompute.answer h tag st d) h { s.port h with stack := es } :=
  portsBecome_of tag st d (fun g => (hu.port g).trans (State.setStack_port s h g es)) rfl

/-- Settles O21: the stack, the word and the state of the top entry select the row, and only the last pops. -/
theorem retireWithoutActiveTop : Obligations.RetireWithoutActiveTop := by
  refine ⟨fun _ _ => handleOfWord_eq_some, fun h tag word s ha => ?_⟩
  obtain ⟨t, ht⟩ : ∃ t : State, exec (.retire h tag word) s = .next t := ⟨_, rfl⟩
  refine ⟨t, ht, fun hs => answers_of_next ht (exec_retire_of_empty ha hs tag word), fun e rest hs =>
    ⟨fun hw => ?_, fun hw hl => ?_⟩⟩
  · rw [← topReport_eq]
    exact answers_of_next ht (exec_retire_of_mismatch ha hs hw tag)
  · obtain rfl := Host.Outcome.next.inj (ht.symm.trans (exec_retire_of_lapsed ha hs hw hl tag))
    refine ⟨rfl, portsBecome_setStack tag .tooLate _ (OnlyPool.refl _), ?_⟩
    rw [popReport_eq, serviceLevel_setStack (OnlyPool.refl (s.setStack h rest))]
    exact answered_answer ..

/-! ## EXTEND -/

section
variable {s : State} {h : Port} {e : Entry} {rest : List Entry} {word : BitVec 16}

/-- EXTEND at a DETACHED port is answered NOT_ATTACHED (R139). -/
theorem exec_extend_of_detached (hd : (s.port h).state = .detached) (tag : Byte) (word : BitVec 16) :
    exec (.extend h tag word) s = .next (s.answer h tag .notAttached []) :=
  congrArg _ (ifAttached_of_detached hd tag _)

variable (ha : (s.port h).state = .attached)
include ha

/-- EXTEND with an empty stack is answered NOTHING_HELD (R75). -/
theorem exec_extend_of_empty (hs : (s.port h).stack = []) (tag : Byte) (word : BitVec 16) :
    exec (.extend h tag word) s = .next (s.answer h tag .nothingHeld []) := by
  simp [exec, execExtend, ifAttached_of_attached ha, hs]

variable (hs : (s.port h).stack = e :: rest)
include hs

/-- EXTEND with a word that does not name the top entry reports that entry (R75). -/
theorem exec_extend_of_mismatch (hw : handleOfWord word ≠ some e.handle) (tag : Byte) :
    exec (.extend h tag word) s = .next (s.answer h tag .mismatch (topReport e)) := by
  simp [exec, execExtend, ifAttached_of_attached ha, hs, hw]

variable (hw : handleOfWord word = some e.handle)
include hw

/-- EXTEND of a LAPSED entry is answered TOO_LATE (R75). -/
theorem exec_extend_of_lapsed (hl : e.state = .lapsed) (tag : Byte) :
    exec (.extend h tag word) s = .next (s.answer h tag .tooLate []) := by
  simp [exec, execExtend, ifAttached_of_attached ha, hs, hw, hl]

variable (hactive : e.state = .active)
include hactive

/-- EXTEND of an entry without a deadline is answered NO_LIMIT (R75). -/
theorem exec_extend_of_noLimit (hn : e.expiry = none) (tag : Byte) :
    exec (.extend h tag word) s = .next (s.answer h tag .noLimit []) := by
  simp [exec, execExtend, ifAttached_of_attached ha, hs, hw, hactive, hn]

variable (hdeadline : e.expiry.isSome = true)
include hdeadline

/-- EXTEND of an entry that was extended three times is answered EXTEND_LIMIT (R75). -/
theorem exec_extend_of_limit (hthree : 3 ≤ e.extensions) (tag : Byte) :
    exec (.extend h tag word) s = .next (s.answer h tag .extendLimit []) := by
  simp [exec, execExtend, ifAttached_of_attached ha, hs, hw, hactive, Config.maxExtensions, hthree,
    Option.isSome_iff_ne_none.1 hdeadline]

/-- Any other EXTEND moves the deadline of the top entry to one service limit from now (R76). -/
theorem exec_extend_of_accepted (hfew : e.extensions < 3) (tag : Byte) :
    exec (.extend h tag word) s =
      .next ((s.setStack h
          ({ e with
              expiry := some (s.timebase + BitVec.ofNat 48 (100 * (s.limitOf e.handle).toNat))
              extensions := e.extensions + 1 } :: rest)).answer h tag .ok
        (bytes24 (100 * (s.limitOf e.handle).toNat) ++ [byteOf (e.extensions + 1)])) := by
  simp [exec, execExtend, ifAttached_of_attached ha, hs, hw, hactive, Config.maxExtensions, hfew.not_ge,
    Option.isSome_iff_ne_none.1 hdeadline, Config.limitUnit]

end

/-- Settles O26: the cases of R75 in their order, and an accepted EXTEND writes the top entry alone. -/
theorem extendRestartsDeadline : Obligations.ExtendRestartsDeadline := by
  intro h tag word s
  obtain ⟨t, ht⟩ : ∃ t : State, exec (.extend h tag word) s = .next t := ⟨_, rfl⟩
  refine ⟨t, ht, fun hd => answers_of_next ht (exec_extend_of_detached hd tag word), fun ha =>
    ⟨fun hs => answers_of_next ht (exec_extend_of_empty ha hs tag word), fun e rest hs => ⟨fun hw => ?_, fun hw =>
      ⟨fun hl => ?_, fun hactive hn => ?_, fun hactive hd hthree => ?_, fun u hactive hd hfew hu => ?_⟩⟩⟩⟩
  · rw [← topReport_eq]
    exact answers_of_next ht (exec_extend_of_mismatch ha hs hw tag)
  · exact answers_of_next ht (exec_extend_of_lapsed ha hs hw hl tag)
  · exact answers_of_next ht (exec_extend_of_noLimit ha hs hw hactive hn tag)
  · exact answers_of_next ht (exec_extend_of_limit ha hs hw hactive hd hthree tag)
  · have haccepted := exec_extend_of_accepted ha hs hw hactive hd hfew tag
    have hlimit : s.limitOf e.handle = u.serviceLimit := by
      rw [State.limitOf, (ticketAt_of_named hu).1]
    rw [hlimit] at haccepted
    obtain rfl := Host.Outcome.next.inj (ht.symm.trans haccepted)
    exact ⟨answer_setPort .., answered_answer ..⟩
end Sys2Proof.Machine
end

section
/-! SUPPORT. The freeing of a ticket, the re-arm check, and the settling of a round, as RETIRE brings them (R31, R33, R34,
R69, R70, R73, R74). -/

namespace Sys2Proof.Machine

/-! ## Freeing -/

/-- A freeing while no source is deferred leaves the slot free. -/
theorem freeTicket_of_nothingDeferred {s : State} (hn : s.NothingDeferred) {i : SlotId}
    (hi : (s.ticketAt i).isSome = true) : s.freeTicket i = s.clearSlot i := by
  rcases freeTicket_cases s i with ⟨hfree, -⟩ | ⟨-, -, hcleared⟩ | ⟨src, d, -, -, hd, -⟩
  · rw [hfree] at hi
    cases hi
  · exact hcleared
  · rw [hn src] at hd
    cases hd

/-- A freeing while sources are deferred grants the slot to the one that R33 names. -/
theorem freeTicket_of_firstDeferred {s : State} {src : SourceId} {d : Deferral} (hf : s.FirstDeferred src)
    (hd : s.deferralOf src = some d) {i : SlotId} (hi : (s.ticketAt i).isSome = true) :
    s.freeTicket i = ((s.clearSlot i).createTicket i src d.count d.stamp none).setDeferral src none := by
  rcases freeTicket_cases s i with ⟨hfree, -⟩ | ⟨-, hn, -⟩ | ⟨other, d', -, hf', hd', hgranted⟩
  · rw [hfree] at hi
    cases hi
  · rw [hn src] at hd
    cases hd
  · obtain rfl := firstDeferred_unique hf hf'
    obtain rfl := Option.some.inj (hd.symm.trans hd')
    exact hgranted

/-- The freed slot after its grant. -/
theorem granted_slotAt (s : State) (i j : SlotId) (src : SourceId) (d : Deferral) :
    (((s.clearSlot i).createTicket i src d.count d.stamp none).setDeferral src none).slotAt j =
      if j = i then
        { generation := (s.slotAt i).generation + 1, ticket := some (s.newTicket src d.count d.stamp none) }
      else s.slotAt j := by
  rw [State.setDeferral_slotAt, createTicket_slotAt, clearSlot_slotAt, clearSlot_slotAt, if_pos rfl,
    (clearSlot_onlyPool s i).newTicket]
  split <;> rfl

/-- A freeing is that of R31, R33 and R34. -/
theorem freeTicket_frees {s : State} {i : SlotId} (hi : (s.ticketAt i).isSome = true) :
    Frees s (s.freeTicket i) i := by
  refine ⟨freeTicket_onlyPool s i, fun hn => ?_, fun src hf d hd => ?_⟩
  · rw [freeTicket_of_nothingDeferred hn hi]
    exact ⟨fun j => clearSlot_slotAt s i j, rfl, rfl⟩
  · rw [freeTicket_of_firstDeferred hf hd hi]
    exact ⟨fun j => granted_slotAt s i j src d, rfl, rfl⟩

/-! ## The re-arm check -/

/-- The re-arm check is that of R73 and R74. -/
theorem rearm_eq_rearmCheck (s : State) (src : SourceId) : s.rearm src = s.rearmCheck src := by
  simp [State.rearm, State.rearmCheck]

theorem settle_eq (s : State) (i : SlotId) (src : SourceId) : s.settle i src = (s.freeTicket i).rearmCheck src := by
  rw [State.settle, rearm_eq_rearmCheck]

/-- A change of the pool alone is no cause for a re-arm. -/
theorem OnlyPool.noCause {s t : State} (h : OnlyPool s t) {src : SourceId} (hs : s.NoCause src) : t.NoCause src :=
  ⟨by rw [h.lineActive, hs.1], fun hsrc => by rw [h.faults, hs.2 hsrc]⟩

/-- A source with a cause for a re-arm and no live ticket has an occurrence. -/
theorem rearmCheck_of_cause {s : State} {src : SourceId}
    (hcause : s.lineActive src = true ∨ (src = faultSource ∧ s.faults.records ≠ [])) (hc : s.liveCount src = 0) :
    s.rearmCheck src = s.occurrence src := if_pos ⟨hcause, hc⟩

/-- The clearing of a slot takes one from the non-FREE count of its ticket's source (R32). -/
theorem liveCount_clearSlot {s : State} {i : SlotId} {u : Ticket} (hu : s.ticketAt i = some u) :
    s.liveCount u.source = (s.clearSlot i).liveCount u.source + 1 := by
  have hticket (j : SlotId) : (s.clearSlot i).ticketAt j = if j = i then none else s.ticketAt j := by
    rw [State.ticketAt, clearSlot_slotAt]
    split <;> rfl
  refine countP_finRange_succ (i := i) ?_ ?_ fun k hk => ?_
  · simp [State.holdsSource, hticket]
  · simp [State.holdsSource, hu]
  · simp [State.holdsSource, hticket, hk]

/-- A ticket settles into a free slot and nothing more, while no source is deferred, if its source has no cause for a
re-arm or another live ticket. -/
theorem settle_of_quiet {s : State} {i : SlotId} {u : Ticket} (hu : s.ticketAt i = some u) (hn : s.NothingDeferred)
    (hquiet : s.NoCause u.source ∨ 1 < s.liveCount u.source) : s.settle i u.source = s.clearSlot i := by
  rw [State.settle, freeTicket_of_nothingDeferred hn (by rw [hu]; rfl)]
  rcases hquiet with hno | hlive
  · exact rearm_of_noCause ((clearSlot_onlyPool s i).noCause hno)
  · refine rearm_of_live ?_
    have := liveCount_clearSlot hu
    omega

/-- A source without a live ticket has no WAITING ticket. -/
theorem waitingTicket_of_liveCount {s : State} {src : SourceId} (h : s.liveCount src = 0) :
    s.waitingTicket src = none := by
  cases hw : s.waitingTicket src with
  | none => rfl
  | some i =>
    obtain ⟨u, hu, hsource, -⟩ := ticket_of_waitingTicket hw
    have hno := List.countP_eq_zero.1 h i (List.mem_finRange i)
    exact absurd (holdsSource_iff.2 ⟨u, hu, hsource⟩) hno

/-- A source with a cause for a re-arm is none of the posted ones. -/
theorem posted_of_cause {s : State} {src : SourceId}
    (hcause : s.lineActive src = true ∨ (src = faultSource ∧ s.faults.records ≠ [])) :
    SourceId.posted src = false := by
  rcases hcause with hactive | ⟨rfl, -⟩
  · exact posted_of_lt ((lt_of_lineActive hactive).trans (by decide))
  · rfl

/-- The last ticket of an enabled source with a cause for a re-arm settles into a fresh one in the lowest free slot,
while no source is deferred (R73, R74). -/
theorem settle_of_rearm {s : State} {i : SlotId} {u : Ticket} (hu : s.ticketAt i = some u) (hn : s.NothingDeferred)
    (hcause : s.lineActive u.source = true ∨ (u.source = faultSource ∧ s.faults.records ≠ []))
    (hlevel : (s.config u.source).level ≠ 0) (hlast : s.liveCount u.source = 1) :
    ∃ j, (s.clearSlot i).lowestFree = some j
      ∧ s.settle i u.source = (s.clearSlot i).createTicket j u.source 1 s.timebase none := by
  have hlive : (s.clearSlot i).liveCount u.source = 0 := by
    have := liveCount_clearSlot hu
    omega
  have hframe := clearSlot_onlyPool s i
  have hfree : (s.clearSlot i).ticketAt i = none := by
    rw [State.ticketAt, clearSlot_slotAt, if_pos rfl]
  obtain ⟨j, hj⟩ : ∃ j, (s.clearSlot i).lowestFree = some j := by
    cases hf : (s.clearSlot i).lowestFree with
    | none =>
      have := lowestFree_eq_none.1 hf i
      rw [hfree] at this
      cases this
    | some j => exact ⟨j, rfl⟩
  refine ⟨j, hj, ?_⟩
  have hcreated : (s.clearSlot i).occurrenceCase u.source = .created j :=
    occurrenceCase_of_free (by rwa [hframe.config]) (posted_of_cause hcause) (waitingTicket_of_liveCount hlive)
      (hn u.source) hj
  rw [settle_eq, freeTicket_of_nothingDeferred hn (by rw [hu]; rfl),
    rearmCheck_of_cause (by rwa [hframe.lineActive, hframe.faults]) hlive, occurrence_of_created hcreated]
  rfl

/-! ## Rounds -/

/-- Nobody but host h is owed exactly when nobody is left without it. -/
theorem without_eq_zero_iff {owed : HostSet} {h : Port} :
    HostSet.without owed h = 0 ↔ ∀ p : Port, p ≠ h → HostSet.has owed p = false := by
  revert owed h
  decide

theorem without_ne_zero_iff {owed : HostSet} {h : Port} :
    HostSet.without owed h ≠ 0 ↔ ∃ p : Port, p ≠ h ∧ HostSet.has owed p = true := by
  revert owed h
  decide

/-- The leaving of a round by a host, while somebody else is owed. -/
theorem leaveRound_of_owed {s : State} {h : Port} {i : SlotId} {u : Ticket} {owed claimed : HostSet}
    {expiry : Option Time} (hu : s.ticketAt i = some u) (hspread : u.standing = .spread owed claimed expiry)
    (hothers : ∃ p : Port, p ≠ h ∧ HostSet.has owed p = true) :
    s.leaveRound h i = s.setTicket i
      { u with standing := .spread (HostSet.without owed h) (HostSet.without claimed h) expiry } := by
  rw [State.leaveRound, hu]
  dsimp only
  rw [hspread]
  exact if_neg (without_ne_zero_iff.2 hothers)

/-- The leaving of a round by the last host owed. -/
theorem leaveRound_of_last {s : State} {h : Port} {i : SlotId} {u : Ticket} {owed claimed : HostSet}
    {expiry : Option Time} (hu : s.ticketAt i = some u) (hspread : u.standing = .spread owed claimed expiry)
    (hlast : ∀ p : Port, p ≠ h → HostSet.has owed p = false) : s.leaveRound h i = s.settle i u.source := by
  rw [State.leaveRound, hu]
  dsimp only
  rw [hspread]
  exact if_pos (without_eq_zero_iff.2 hlast)

/-- The leaving of a round is that of R70. -/
theorem leaveRound_leavesRound {s : State} (h : Port) {i : SlotId} {u : Ticket} {owed claimed : HostSet}
    {expiry : Option Time} (hu : s.ticketAt i = some u) (hspread : u.standing = .spread owed claimed expiry) :
    LeavesRound s (s.leaveRound h i) h i u owed claimed expiry := by
  refine ⟨fun hothers => leaveRound_of_owed hu hspread hothers, fun hlast => ?_⟩
  rw [leaveRound_of_last hu hspread hlast, settle_eq]

/-! ## RETIRE of an ACTIVE entry -/

/-- The replacement of a stack does not show in the operations of the pool. -/
theorem sameView_setStack (s : State) (h : Port) (es : List Entry) : SameView s (s.setStack h es) where
  timebase := rfl
  sources := rfl
  faultLevel := rfl
  token := rfl
  pool := rfl
  attached g := setPort_attached (p := { s.port h with stack := es }) rfl g

theorem SameCauses.of_stack (s : State) (h : Port) (es : List Entry) : SameCauses s (s.setStack h es) :=
  ⟨fun _ => rfl, rfl⟩

section
variable {s : State} {h : Port} {e : Entry} {rest : List Entry} {word : BitVec 16} {u : Ticket}
  (ha : (s.port h).state = .attached) (hs : (s.port h).stack = e :: rest)
  (hw : handleOfWord word = some e.handle) (hactive : e.state = .active) (hu : s.named e.handle = some u)

section
include ha hs hw hactive

/-- What RETIRE of an ACTIVE entry leaves beside the pool, and its report (R69, R70). -/
theorem retire_outcome (tag : Byte) {r : State}
    (hr : (s.setStack h rest).retireTicket h e.handle = r) :
    ∃ t : State, exec (.retire h tag word) s = .next t
      ∧ t = { s with pool := t.pool, ports := t.ports }
      ∧ t.pool = r.pool
      ∧ PortsBecome s t h { s.port h with stack := rest }
      ∧ t.Answered h tag .ok
          (bytesOf16 (wireWord e.handle e.source.val)
            ++ [BitVec.ofNat 8 (e.level.val + if s.retirementFrees h e.handle then 32 else 0),
                BitVec.ofNat 8 ((rest.head?.map fun x => x.level.val).getD 0)]) := by
  have hframe : OnlyPool (s.setStack h rest) r := hr ▸ retireTicket_onlyPool _ h e.handle
  have hnext := exec_retire_of_active ha hs hw hactive tag
  rw [hr, popReport_eq, serviceLevel_setStack hframe] at hnext
  refine ⟨_, hnext, ?_, rfl, portsBecome_setStack tag .ok _ hframe, answered_answer ..⟩
  exact State.ext_fields hframe.timebase hframe.sources hframe.faultLevel hframe.lines rfl rfl hframe.timers
    hframe.token hframe.faults hframe.pending

end

include hu

/-- The ticket of a popped entry settles where it is HELD, or where its last host leaves the round (R69, R70). -/
theorem retireTicket_settles
    (hsettles : (u.waits = false ∧ u.inRound = false)
      ∨ (u.inRound = true ∧ ∀ p : Port, p ≠ h → HostSet.has u.owed p = false)) :
    (s.setStack h rest).retireTicket h e.handle = (s.setStack h rest).settle e.handle.slot u.source
      ∧ s.retirementFrees h e.handle = true := by
  have hnamed : (s.setStack h rest).named e.handle = some u := hu
  have hticket : (s.setStack h rest).ticketAt e.handle.slot = some u := (ticketAt_of_named hu).1
  unfold State.retireTicket State.retirementFrees
  rw [hnamed, hu]
  dsimp only
  cases hstanding : u.standing with
  | waiting => simp [Ticket.waits, Ticket.inRound, hstanding] at hsettles
  | held g => exact ⟨rfl, rfl⟩
  | spread owed claimed expiry =>
    have hlast : ∀ p : Port, p ≠ h → HostSet.has owed p = false := by
      simpa [Ticket.waits, Ticket.inRound, Ticket.owed, hstanding] using hsettles
    refine ⟨leaveRound_of_last hticket hstanding hlast, ?_⟩
    exact beq_iff_eq.2 (without_eq_zero_iff.2 hlast)

end

/-- The pool after a ticket settles, as the state before a stack was replaced has it. -/
theorem settle_setStack_pool (s : State) (h : Port) (es : List Entry) (i : SlotId) (src : SourceId) :
    ((s.setStack h es).settle i src).pool = (s.settle i src).pool :=
  ((sameView_setStack s h es).settle (.of_stack s h es) i src).pool

/-- From a pool that a slot was cleared in. -/
theorem cleared_of_pool {s t : State} {hd : Handle} {u : Ticket} (hu : s.named hd = some u)
    (ht : t.pool = (s.clearSlot hd.slot).pool) :
    SlotBecomes s t hd.slot { generation := hd.generation + 1, ticket := none }
      ∧ t.pool.order = s.pool.order.erase hd.slot ∧ t.pool.deferrals = s.pool.deferrals := by
  refine ⟨fun j => ?_, by rw [ht]; rfl, by rw [ht]; rfl⟩
  rw [State.slotAt, ht, ← (ticketAt_of_named hu).2]
  exact clearSlot_slotAt s hd.slot j

/-- Settles O22: the ticket settles, and a settling without a cause is a clearing of the slot. -/
theorem retireHeldFreesTicket : Obligations.RetireHeldFreesTicket := by
  intro h g tag word s e rest u ha hs hw hactive hu hheld
  obtain ⟨hsettle, hfrees⟩ := retireTicket_settles (h := h) (rest := rest) hu
    (.inl ⟨by simp [Ticket.waits, hheld], by simp [Ticket.inRound, hheld]⟩)
  obtain ⟨t, hnext, hframe, hpool, hports, hanswer⟩ := retire_outcome ha hs hw hactive tag hsettle
  rw [settle_setStack_pool] at hpool
  rw [hfrees] at hanswer
  refine ⟨t, hnext, hframe, by rw [hpool, settle_eq], fun hn hquiet => ?_, hports, hanswer⟩
  rw [settle_of_quiet (ticketAt_of_named hu).1 hn hquiet] at hpool
  exact cleared_of_pool hu hpool

/-- The reservation of a new ticket is that of R46. -/
theorem reservationFor_eq (s : State) (r : SourceRecord) (stamp : Time) :
    s.reservationFor r stamp =
      if r.policy = .single ∧ r.window ≠ 0 then
        r.preferred.bind fun g =>
          if (s.port g).state = .attached ∧ (s.timebase - stamp).toNat < r.window.toNat then
            some { host := g, expiry := stamp + r.window.setWidth 48 }
          else none
      else none := by
  unfold State.reservationFor
  cases r.policy with
  | each => simp
  | single =>
    cases r.preferred with
    | none => simp
    | some g =>
      simp only [attached_iff]
      by_cases hwindow : r.window = 0#16
      · simp [hwindow]
      · simp [hwindow]

/-- Settles O23: the ticket settles, and the slot it frees is granted before the re-arm check, which finds no cause. -/
theorem retireGrantsFreedSlot : Obligations.RetireGrantsFreedSlot := by
  refine ⟨reservationFor_eq, fun _ _ _ _ _ => rfl, fun s i hi => freeTicket_frees hi,
    fun h g tag word s e rest u src d ha hs hw hactive hu hheld hno hfirst hd => ?_⟩
  obtain ⟨hsettle, hfrees⟩ := retireTicket_settles (h := h) (rest := rest) hu
    (.inl ⟨by simp [Ticket.waits, hheld], by simp [Ticket.inRound, hheld]⟩)
  obtain ⟨t, hnext, hframe, hpool, hports, hanswer⟩ := retire_outcome ha hs hw hactive tag hsettle
  have hlive : (s.ticketAt e.handle.slot).isSome = true := by
    rw [(ticketAt_of_named hu).1]
    rfl
  have hsettled : s.settle e.handle.slot u.source = s.freeTicket e.handle.slot :=
    rearm_of_noCause ((freeTicket_onlyPool s e.handle.slot).noCause hno)
  rw [settle_setStack_pool, hsettled, freeTicket_of_firstDeferred hfirst hd hlive] at hpool
  rw [hfrees] at hanswer
  refine ⟨t, hnext, hframe, fun j => ?_, by rw [hpool]; rfl, fun other => ?_, hports, hanswer⟩
  · rw [State.slotAt, hpool, ← (ticketAt_of_named hu).2]
    exact granted_slotAt s e.handle.slot j src d
  · rw [State.deferralOf, hpool]
    exact State.setDeferral_deferralOf _ src other none

/-- The non-FREE count counts the live tickets of a source (R32). -/
theorem liveCount_eq (s : State) (src : SourceId) :
    s.liveCount src = (List.finRange 64).countP fun i => (s.ticketAt i).any fun u => u.source == src := by
  refine congrArg (fun p => (List.finRange 64).countP p) (funext fun i => ?_)
  unfold State.holdsSource
  cases s.ticketAt i <;> rfl

/-- The line of a level-sensed source is at its active level as R5 has it. -/
theorem lineActive_iff (s : State) (src : SourceId) : s.lineActive src = true ↔ s.LineAt src true := by
  unfold State.lineActive State.LineAt
  cases hline : SourceId.line src with
  | none => simp [← line_eq_some, hline]
  | some n => cases hsense : (s.config src).sense <;> simp [← line_eq_some, hline, Sense.activeLevel]

/-- The line of a level-sensed source is at its inactive level as R5 has it. -/
theorem lineInactive_iff (s : State) (src : SourceId) : s.lineInactive src = true ↔ s.LineAt src false := by
  unfold State.lineInactive State.LineAt
  cases hline : SourceId.line src with
  | none => simp [← line_eq_some, hline]
  | some n => cases hsense : (s.config src).sense <;> simp [← line_eq_some, hline, Sense.activeLevel]

/-- Settles O24: the ticket settles, and the re-arm check that follows finds the cause and a free slot. -/
theorem retireRearmsActiveLine : Obligations.RetireRearmsActiveLine := by
  refine ⟨fun src s => liveCount_eq s src, fun src s => ⟨lineActive_iff s src, lineInactive_iff s src⟩,
    fun h tag word s e rest u ha hs hw hactive hu hn hsettles hcause hlevel hlast => ?_⟩
  obtain ⟨hsettle, hfrees⟩ := retireTicket_settles (h := h) (rest := rest) hu hsettles
  obtain ⟨t, hnext, hframe, hpool, hports, hanswer⟩ := retire_outcome ha hs hw hactive tag hsettle
  obtain ⟨hticket, -⟩ := ticketAt_of_named hu
  obtain ⟨j, hj, hrearmed⟩ := settle_of_rearm hticket hn hcause hlevel hlast
  rw [settle_setStack_pool, hrearmed] at hpool
  rw [hfrees] at hanswer
  obtain ⟨hjfree, hbelow⟩ := lowestFree_eq_some.1 hj
  have hcleared (k : SlotId) : (s.clearSlot e.handle.slot).ticketAt k =
      if k = e.handle.slot then none else s.ticketAt k := by
    rw [State.ticketAt, clearSlot_slotAt]
    split <;> rfl
  have hslots (k : SlotId) : t.slotAt k = ((s.clearSlot e.handle.slot).createTicket j u.source 1 s.timebase none).slotAt k := by
    rw [State.slotAt, hpool]
    rfl
  refine ⟨t, hnext, hframe, by rw [hpool]; rfl, hports, hanswer, j, fun k hk => ?_, ?_, by rw [hpool]; rfl,
    fun k => ?_⟩
  · rw [State.ticketAt, hslots, createTicket_slotAt, if_neg hk.ne]
    exact hbelow k hk
  · rw [hcleared] at hjfree
    split at hjfree
    next h => exact .inl h
    next => exact .inr hjfree
  · rw [hslots, createTicket_slotAt, (clearSlot_onlyPool s _).newTicket, clearSlot_slotAt, clearSlot_slotAt]
    by_cases hkj : k = j
    · subst hkj
      by_cases hk : k = e.handle.slot <;> simp [hk]
    · by_cases hk : k = e.handle.slot
      · subst hk
        simp [hkj]
      · simp [hkj, hk, State.ticketAt]

/-- Settles O25: the leaving of a round in its two cases, behind the popping of the entry. -/
theorem retireShareLeavesRound : Obligations.RetireShareLeavesRound := by
  refine ⟨fun s h i u owed claimed expiry hu hspread => leaveRound_leavesRound h hu hspread,
    fun h tag word s e rest u owed claimed expiry ha hs hw hactive hu hspread => ?_⟩
  obtain ⟨hticket, hgeneration⟩ := ticketAt_of_named hu
  have hleaves : (s.setStack h rest).retireTicket h e.handle = (s.setStack h rest).leaveRound h e.handle.slot := by
    have hnamed : (s.setStack h rest).named e.handle = some u := hu
    rw [State.retireTicket, hnamed]
    dsimp only
    rw [hspread]
  have hfrees : s.retirementFrees h e.handle = true ↔ ¬ ∃ p : Port, p ≠ h ∧ HostSet.has owed p = true := by
    rw [State.retirementFrees, hu]
    dsimp only
    rw [hspread, ← without_ne_zero_iff, not_not]
    exact beq_iff_eq
  obtain ⟨t, hnext, hframe, hpool, hports, hanswer⟩ := retire_outcome ha hs hw hactive tag hleaves
  rw [((sameView_setStack s h rest).leaveRound (.of_stack s h rest) h e.handle.slot).pool] at hpool
  refine ⟨t, hnext, hframe, hports, fun hothers => ?_, fun hlast => ?_, ?_⟩
  · rw [leaveRound_of_owed hticket hspread hothers] at hpool
    refine ⟨fun j => ?_, by rw [hpool]; rfl, by rw [hpool]; rfl⟩
    rw [State.slotAt, hpool]
    exact State.setTicket_slotAt s _ j _
  · rw [leaveRound_of_last hticket hspread hlast] at hpool
    refine ⟨by rw [hpool, settle_eq], fun hn hquiet => ?_⟩
    rw [settle_of_quiet hticket hn hquiet] at hpool
    exact cleared_of_pool hu hpool
  · by_cases hothers : ∃ p : Port, p ≠ h ∧ HostSet.has owed p = true
    · rw [if_neg (by simpa [hfrees] using hothers)] at hanswer
      rw [if_pos hothers]
      exact hanswer
    · rw [if_pos (hfrees.2 hothers)] at hanswer
      rw [if_neg hothers]
      exact hanswer
end Sys2Proof.Machine
end

section
/-! SUPPORT. The configuration of a source: SOURCE_SET (R11 to R16). -/

namespace Sys2Proof.Machine

/-! ## The cases of SOURCE_SET -/

section
variable {s : State} {h : Port} (ha : (s.port h).state = .attached) (ht : s.token = some h)
include ha ht

/-- SOURCE_SET of a source above 48 is answered BAD_ARG (R11). -/
theorem exec_sourceSet_of_noSource {source : Byte} (hs : 48 < source.toNat) (tag : Byte) (config : Vector Byte 9) :
    exec (.sourceSet h tag source config) s = .next (s.answer h tag .badArg []) := by
  simp [exec, execSourceSet, ifSupervisor_of_holder ha ht, sourceOfByte_eq_none.2 hs]

variable {source : Byte} {src : SourceId} (hs : source.toNat = src.val)
include hs

/-- SOURCE_SET with bytes that give no record is answered BAD_ARG (R11). -/
theorem exec_sourceSet_of_refused {config : Vector Byte 9} (hr : s.recordGiven src config = none) (tag : Byte) :
    exec (.sourceSet h tag source config) s = .next (s.answer h tag .badArg []) := by
  simp [exec, execSourceSet, ifSupervisor_of_holder ha ht, sourceOfByte_eq_some.2 hs, hr]

/-- SOURCE_SET with bytes that give a record replaces it, and settles the pending work of its source (R11). -/
theorem exec_sourceSet_of_record {config : Vector Byte 9} {r : SourceRecord}
    (hr : s.recordGiven src config = some r) (tag : Byte) :
    exec (.sourceSet h tag source config) s =
      .next (((s.setConfig src r).afterSourceSet s src).recompute.answer h tag .ok []) := by
  simp [exec, execSourceSet, ifSupervisor_of_holder ha ht, sourceOfByte_eq_some.2 hs, hr]

end

/-- A source's record after a record was set: that of source 48 is given by its level and the token (R2, R11). -/
theorem setConfig_config {s : State} {src : SourceId} {config : Vector Byte 9} {r : SourceRecord}
    (hr : s.recordGiven src config = some r) (other : SourceId) :
    (s.setConfig src r).config other = if other = src then r else s.config other := by
  by_cases hf : src = faultSource
  · subst hf
    rw [State.recordGiven, if_pos rfl, Option.map_eq_some_iff] at hr
    obtain ⟨level, -, rfl⟩ := hr
    rw [State.setConfig, dif_neg (by decide)]
    unfold State.config
    by_cases hlt : other.val < 48
    · rw [dif_pos hlt, dif_pos hlt, if_neg]
      rintro rfl
      exact absurd hlt (by decide)
    · rw [dif_neg hlt, if_pos (eq_faultSource_of_not_lt hlt)]
      rfl
  · exact State.setConfig_config s src other r hf

/-- Settles O38: the record is written in its place, and what follows it does not touch a ticket in service. -/
theorem sourceSetReplacesRecord : Obligations.SourceSetReplacesRecord := by
  intro h tag source config s ha ht
  obtain ⟨t, hnext⟩ : ∃ t : State, exec (.sourceSet h tag source config) s = .next t := ⟨_, rfl⟩
  refine ⟨t, hnext, fun hs => answers_of_next hnext (exec_sourceSet_of_noSource ha ht hs tag config), fun src hs =>
    ⟨fun hr => answers_of_next hnext (exec_sourceSet_of_refused ha ht hs hr tag), fun r hr => ?_⟩⟩
  obtain rfl := Host.Outcome.next.inj (hnext.symm.trans (exec_sourceSet_of_record ha ht hs hr tag))
  have hafter := afterSourceSet_onlyPool (s.setConfig src r) s src
  have hset := setConfig_frame s src r
  have hconfig (other : SourceId) :
      (((s.setConfig src r).afterSourceSet s src).recompute.answer h tag .ok []).config other =
        if other = src then r else s.config other :=
    (hafter.config other).trans (setConfig_config hr other)
  refine ⟨?_, fun other hother => ?_, ⟨?_, ?_, ?_, ?_, ?_, ?_⟩, ?_, answered_answer .., fun i u hu hw => ?_⟩
  · rw [hconfig, if_pos rfl]
  · rw [hconfig, if_neg hother]
  · exact hafter.timebase.trans (by rw [hset])
  · exact hafter.lines.trans (by rw [hset])
  · exact hafter.timers.trans (by rw [hset])
  · exact hafter.token.trans (by rw [hset])
  · exact hafter.faults.trans (by rw [hset])
  · exact hafter.pending.trans (by rw [hset])
  · refine portsBecome_of tag .ok [] (fun g => ?_) rfl
    rw [State.port, configured_ports, ← State.port]
    split
    next hg => rw [hg]
    next => rfl
  · have hundisturbed : Undisturbed s ((s.setConfig src r).afterSourceSet s src) :=
      Undisturbed.trans (t := s.setConfig src r) (undisturbed_of_pool (by rw [hset]))
        (afterSourceSet_undisturbed _ s src)
    exact (hundisturbed.slot i).slotAt hu hw

/-! ## The pending work of a source -/

/-- While a source is not deferred, a freeing leaves it so, and gives it no ticket. -/
theorem freeTicket_of_notDeferred {s : State} {src : SourceId} (hd : s.deferralOf src = none) (i : SlotId) :
    (s.freeTicket i).deferralOf src = none
      ∧ ∀ j : SlotId, ∀ u ∈ (s.freeTicket i).ticketAt j, u.source = src → j ≠ i ∧ s.ticketAt j = some u := by
  have hother {j : SlotId} {u : Ticket} (hj : j ≠ i) (hu : u ∈ (s.freeTicket i).ticketAt j) :
      j ≠ i ∧ s.ticketAt j = some u := by
    rw [State.ticketAt, freeTicket_slotAt_of_ne s hj] at hu
    exact ⟨hj, hu⟩
  rcases freeTicket_cases s i with ⟨hfree, heq⟩ | ⟨-, -, heq⟩ | ⟨other, d, -, -, hdo, heq⟩
  · rw [heq]
    refine ⟨hd, fun j u hu _ => ⟨?_, hu⟩⟩
    rintro rfl
    rw [hfree] at hu
    cases hu
  · refine ⟨by rw [heq]; exact hd, fun j u hu _ => ?_⟩
    by_cases hj : j = i
    · rw [heq, State.ticketAt, clearSlot_slotAt, if_pos hj] at hu
      cases hu
    · exact hother hj hu
  · have hne : other ≠ src := by
      rintro rfl
      rw [hd] at hdo
      cases hdo
    refine ⟨?_, fun j u hu hsrc => ?_⟩
    · rw [heq, State.setDeferral_deferralOf, if_neg (Ne.symm hne)]
      exact hd
    · by_cases hj : j = i
      · rw [heq, State.ticketAt, State.setDeferral_slotAt, ← State.ticketAt, createTicket_ticketAt, if_pos hj] at hu
        obtain rfl := Option.some.inj hu
        exact absurd hsrc hne
      · exact hother hj hu

theorem foldl_freeTicket_of_notDeferred {src : SourceId} (l : List SlotId) {s : State}
    (hd : s.deferralOf src = none) :
    ∀ j : SlotId, ∀ u ∈ (l.foldl State.freeTicket s).ticketAt j, u.source = src →
      j ∉ l ∧ s.ticketAt j = some u := by
  induction l generalizing s with
  | nil => exact fun j u hu _ => ⟨List.not_mem_nil, hu⟩
  | cons i l ih =>
    intro j u hu hsrc
    obtain ⟨hdeferral, hkept⟩ := freeTicket_of_notDeferred hd i
    obtain ⟨hl, hj⟩ := ih hdeferral j u hu hsrc
    obtain ⟨hne, hticket⟩ := hkept j u hj hsrc
    exact ⟨by simp [hne, hl], hticket⟩

/-- After a disabling a source has no pending work (R14). -/
theorem disable_noPending {s : State} {src : SourceId} (ho : s.OrderLaw)
    (hwork : s.deferralOf src = none ∨ ∀ i : SlotId, ∀ u ∈ s.ticketAt i, u.source = src → u.waits = false) :
    (s.disable src).deferralOf src = none
      ∧ ∀ i : SlotId, ∀ u ∈ (s.disable src).ticketAt i, u.source = src → u.waits = false := by
  refine ⟨by rw [State.disable, State.setDeferral_deferralOf, if_pos rfl], fun i u hu hsrc => ?_⟩
  rcases hwork with hd | hnone
  · obtain ⟨hfreed, hticket⟩ := foldl_freeTicket_of_notDeferred (s.waitingTickets src) hd i u hu hsrc
    have hin : i ∈ s.pool.order := (ho.2 i).2 (by rw [hticket]; rfl)
    have hnot : s.waitsFor src i = false := by
      simpa [State.waitingTickets, hin] using hfreed
    simpa [State.waitsFor, hticket, hsrc, Ticket.waits] using hnot
  · rw [(withdraw_of_noneWaiting hnone).2] at hu
    exact hnone i u hu hsrc

/-- A source with one WAITING ticket at most loses the same to a disabling as to a withdrawal (R7, R14). -/
theorem disable_eq_withdraw {s : State} {src : SourceId} (hs : s.PoolLaws) (hp : SourceId.posted src = false) :
    s.disable src = s.withdraw src := by
  have hone : (s.waitingTickets src).Pairwise fun _ _ => False := by
    refine List.Pairwise.imp_of_mem (fun {i j} hi hj hne => ?_) (hs.sound.1.1.filter (s.waitsFor src))
    have hticket {k : SlotId} (hk : k ∈ s.waitingTickets src) :
        ∃ u, s.ticketAt k = some u ∧ u.source = src ∧ u.waits = true := by
      have hwaits := (List.mem_filter.1 hk).2
      unfold State.waitsFor at hwaits
      split at hwaits
      next u hu =>
        rw [Bool.and_eq_true, beq_iff_eq] at hwaits
        exact ⟨u, hu, hwaits.1, hwaits.2⟩
      next => cases hwaits
    obtain ⟨u, hu, hus, huw⟩ := hticket hi
    obtain ⟨v, hv, hvs, hvw⟩ := hticket hj
    exact hne (hs.oneWaiting i j u hu v hv (hus.trans hvs.symm) (hus ▸ hp) huw hvw)
  have hhead : s.waitingTicket src = (s.waitingTickets src).head? := waitingTicket_eq_head s src
  unfold State.disable State.withdraw
  rw [hhead]
  cases hl : s.waitingTickets src with
  | nil => rfl
  | cons w l =>
    rw [hl] at hone
    cases l with
    | nil => rfl
    | cons x l => exact ((List.pairwise_cons.1 hone).1 x (by simp)).elim

/-! ## What follows a new record -/

section
variable {s before : State} {src : SourceId}

/-- An inactive line is not active. -/
theorem lineActive_of_inactive (hi : s.lineInactive src = true) : s.lineActive src = false := by
  unfold State.lineInactive at hi
  unfold State.lineActive
  split at hi
  next n a hline hsense => simpa [hline, hsense] using hi
  next => cases hi

/-- Only a line source has an inactive line. -/
theorem lt_of_lineInactive (hi : s.lineInactive src = true) : src.val < 32 := by
  obtain ⟨n, rfl, -⟩ := (lineInactive_iff s src).1 hi
  exact n.isLt

/-- The new record makes its source held active, or enables source 48 while the fault queue holds records
(R13, R16). -/
def State.Arises (s before : State) (src : SourceId) : Prop :=
  (s.lineActive src = true ∧ ((before.config src).level = 0 ∨ before.lineActive src = false))
    ∨ (src = faultSource ∧ (before.config src).level = 0 ∧ s.faults.records ≠ [])

/-- With a level above 0 a SOURCE_SET makes its occurrence exactly in the two cases of R13 and R16. -/
theorem occurrenceOnSet_of_arises (hl : (s.config src).level ≠ 0) (ha : s.Arises before src) :
    s.occurrenceOnSet before src = s.occurrence src := by
  refine if_pos ?_
  rcases ha with ⟨hactive, hlevel | hinactive⟩ | ⟨rfl, hlevel, hrecords⟩
  · simp [State.heldActive, hl, hactive, hlevel]
  · simp [State.heldActive, hl, hactive, hinactive]
  · simp [hl, hlevel, hrecords]

theorem occurrenceOnSet_of_not_arises (ha : ¬ s.Arises before src) : s.occurrenceOnSet before src = s := by
  refine if_neg fun hcond => ha ?_
  simp only [State.heldActive, Bool.or_eq_true, Bool.and_eq_true, decide_eq_true_eq, Bool.not_eq_true',
    beq_iff_eq, Bool.and_eq_false_iff, decide_eq_false_iff_not, not_not] at hcond
  rcases hcond with ⟨⟨-, hactive⟩, hbefore⟩ | ⟨⟨⟨hsrc, hlevel⟩, -⟩, hrecords⟩
  · exact .inl ⟨hactive, hbefore⟩
  · exact .inr ⟨hsrc, hlevel, by simpa using hrecords⟩

/-- No occurrence arises from an inactive line. -/
theorem not_arises_of_inactive (hi : s.lineInactive src = true) : ¬ s.Arises before src := by
  rintro (⟨hactive, -⟩ | ⟨rfl, -⟩)
  · rw [lineActive_of_inactive hi] at hactive
    cases hactive
  · exact absurd (lt_of_lineInactive hi) (by decide)

/-- A record of a level above 0 whose line is inactive withdraws the pending work of its source (R13). -/
theorem afterSourceSet_of_inactive (hl : (s.config src).level ≠ 0) (hi : s.lineInactive src = true) :
    s.afterSourceSet before src = s.withdraw src := by
  have hlevel : ((s.withdraw src).config src).level ≠ 0 := by rwa [(withdraw_onlyPool s src).config]
  rw [afterSourceSet_eq, occurrenceOnSet_of_not_arises (not_arises_of_inactive hi), State.withdrawInactive, if_pos hi,
    State.disableOff, if_neg hlevel]

/-- A record of a level above 0 in one of the two cases of R13 and R16 is one occurrence of its source. -/
theorem afterSourceSet_of_arises (hl : (s.config src).level ≠ 0) (ha : s.Arises before src) :
    s.afterSourceSet before src = s.occurrence src := by
  have honly := occurrence_onlyPool s src 0
  have hinactive : s.lineInactive src = false := by
    by_contra hi
    exact not_arises_of_inactive (by simpa using hi) ha
  rw [afterSourceSet_eq, occurrenceOnSet_of_arises hl ha, State.withdrawInactive, honly.lineInactive, hinactive,
    if_neg (by decide), State.disableOff, honly.config, if_neg hl]

/-- Any other record of a level above 0 leaves the pool (R15). -/
theorem afterSourceSet_of_neither (hl : (s.config src).level ≠ 0) (hi : s.lineInactive src = false)
    (ha : ¬ s.Arises before src) : s.afterSourceSet before src = s := by
  rw [afterSourceSet_eq, occurrenceOnSet_of_not_arises ha, State.withdrawInactive, hi, if_neg (by decide),
    State.disableOff, if_neg hl]

/-- A record of level 0 disables its source, whatever its line (R14). -/
theorem afterSourceSet_of_levelZero (hs : s.PoolLaws) (hl : (s.config src).level = 0) :
    s.afterSourceSet before src = s.disable src := by
  have hocc : s.occurrenceOnSet before src = s := by simp [State.occurrenceOnSet, State.heldActive, hl]
  rw [afterSourceSet_eq, hocc, State.withdrawInactive]
  split
  next hi =>
    have hp : SourceId.posted src = false := posted_of_lt ((lt_of_lineInactive hi).trans (by decide))
    have hlevel : ((s.withdraw src).config src).level = 0 := by rwa [(withdraw_onlyPool s src).config]
    obtain ⟨hdeferral, hnone⟩ := withdraw_noPending hs hp
    rw [State.disableOff, if_pos hlevel, (withdraw_of_noneWaiting hnone).2, setDeferral_of_eq hdeferral,
      disable_eq_withdraw hs hp]
  next => rw [State.disableOff, if_pos hl]

/-- A record of level 0 leaves its source no pending work, and the pool is that of the disabling (R14). -/
theorem configured_of_levelZero {config : Vector Byte 9} {r : SourceRecord} (hs : s.PoolLaws)
    (hr : s.recordGiven src config = some r) (hl : r.level = 0) :
    (s.setConfig src r).afterSourceSet s src = (s.setConfig src r).disable src
      ∧ ((s.setConfig src r).disable src).deferralOf src = none
      ∧ ∀ i : SlotId, ∀ u ∈ ((s.setConfig src r).disable src).ticketAt i, u.source = src → u.waits = false := by
  have hlevel : ((s.setConfig src r).config src).level = 0 := by rw [setConfig_level, if_pos rfl, hl]
  have horder : (s.setConfig src r).OrderLaw :=
    (poolSound_of_pool (s := s) (by rw [setConfig_frame]) hs.sound).1
  cases hd : s.deferralOf src with
  | none =>
    have hdeferral : (s.setConfig src r).deferralOf src = none := by rw [setConfig_deferralOf, hd]
    exact ⟨afterSourceSet_of_levelZero (setConfig_poolLaws hr (fun _ => hd) hs) hlevel,
      disable_noPending horder (.inl hdeferral)⟩
  | some d =>
    have hnone : ∀ i : SlotId, ∀ u ∈ (s.setConfig src r).ticketAt i, u.source = src → u.waits = false :=
      fun i u hu => (hs.deferral src d hd).2.2.2 i u (by rwa [setConfig_ticketAt] at hu)
    exact ⟨(afterSourceSet_of_disabled hlevel hnone).trans (withdraw_of_noneWaiting hnone).2.symm,
      disable_noPending horder (.inr hnone)⟩

end

/-- Settles O39: the level and the line under the new record select what follows it. -/
theorem sourceSetSettlesPendingWork : Obligations.SourceSetSettlesPendingWork := by
  refine ⟨fun src s => ⟨fun i => ?_, waitingTicket_eq_head s src⟩,
    fun h tag source config s src r hlawful ha ht hs hr => ?_⟩
  · unfold State.waitsFor
    cases s.ticketAt i <;> rfl
  have hpool : s.PoolLaws := (lawful_iff.1 hlawful).1.pool
  have hnext := exec_sourceSet_of_record ha ht hs hr tag
  have hafter := afterSourceSet_onlyPool (s.setConfig src r) s src
  have hset := setConfig_frame s src r
  have hlevel : ((s.setConfig src r).config src).level = r.level := by rw [setConfig_config hr, if_pos rfl]
  have hstate : { s with sources := ((s.setConfig src r).afterSourceSet s src).sources
                         faultLevel := ((s.setConfig src r).afterSourceSet s src).faultLevel } = s.setConfig src r := by
    rw [hafter.sources, hafter.faultLevel]
    exact hset.symm
  obtain ⟨t, htdef⟩ : ∃ t, t = ((s.setConfig src r).afterSourceSet s src).recompute.answer h tag .ok [] := ⟨_, rfl⟩
  rw [← htdef] at hnext
  have htpool : t.pool = ((s.setConfig src r).afterSourceSet s src).pool := by rw [htdef]; rfl
  have htstate : { s with sources := t.sources, faultLevel := t.faultLevel } = s.setConfig src r := by
    rw [htdef]
    exact hstate
  have hinactive : t.lineInactive src = (s.setConfig src r).lineInactive src := by
    rw [htdef]
    exact hafter.lineInactive src
  have hactive : t.lineActive src = (s.setConfig src r).lineActive src := by
    rw [htdef]
    exact hafter.lineActive src
  have hfaults : (s.setConfig src r).faults = s.faults := by rw [hset]
  have harises : (s.setConfig src r).Arises s src ↔
      (t.lineActive src = true ∧ ((s.config src).level = 0 ∨ s.lineActive src = false))
        ∨ (src = faultSource ∧ (s.config src).level = 0 ∧ s.faults.records ≠ []) := by
    rw [State.Arises, hactive, hfaults]
  have hoccurs (hl : r.level ≠ 0) (hcase : (s.setConfig src r).Arises s src) :
      t.pool = ((s.setConfig src r).occurrence src).pool := by
    rw [htpool, afterSourceSet_of_arises (by rwa [hlevel]) hcase]
  refine ⟨t, hnext, fun hquiet => ?_, fun hl => ?_, fun hl hi => ?_, fun hl hi hheld hfault => ?_,
    fun hl hcase => ?_, fun hl hcase hnone hd i hfree hbelow => ?_⟩
  · suffices hpending : ((s.setConfig src r).afterSourceSet s src).deferralOf src = none
        ∧ ∀ i : SlotId, ∀ u ∈ ((s.setConfig src r).afterSourceSet s src).ticketAt i, u.source = src →
          u.waits = false by
      rw [htdef]
      exact hpending
    by_cases hl : r.level = 0
    · obtain ⟨heq, hpending⟩ := configured_of_levelZero hpool hr hl
      rwa [heq]
    · have hi := hquiet.resolve_left hl
      rw [hinactive] at hi
      rw [afterSourceSet_of_inactive (by rwa [hlevel]) hi]
      exact withdraw_noPending (setConfig_poolLaws hr (fun h0 => absurd h0 hl) hpool)
        (posted_of_lt ((lt_of_lineInactive hi).trans (by decide)))
  · obtain ⟨heq, -⟩ := configured_of_levelZero hpool hr hl
    have hwaiting : (s.setConfig src r).waitingTickets src = s.pool.order.filter (s.waitsFor src) := by
      rw [hset]
      rfl
    rw [htpool, heq, htstate, State.disable, hwaiting]
  · rw [hinactive] at hi
    rw [htpool, htstate, afterSourceSet_of_inactive (by rwa [hlevel]) hi]
  · rw [hinactive] at hi
    have hno : ¬ (s.setConfig src r).Arises s src := by
      rw [harises]
      rintro (⟨hline, hbefore⟩ | ⟨hsrc, hzero, hrecords⟩)
      · obtain ⟨henabled, hwas⟩ := hheld hline
        rw [hwas] at hbefore
        exact henabled (hbefore.resolve_right (by decide))
      · exact (hfault hsrc).elim (fun henabled => henabled hzero) hrecords
    rw [htpool, afterSourceSet_of_neither (by rwa [hlevel]) hi hno, hset]
  · rw [hoccurs hl (harises.2 hcase), htstate]
  · have hcase' := harises.2 hcase
    have hticket (k : SlotId) : (s.setConfig src r).ticketAt k = s.ticketAt k := setConfig_ticketAt s src r k
    have hcause : (s.setConfig src r).lineActive src = true
        ∨ (src = faultSource ∧ (s.setConfig src r).faults.records ≠ []) :=
      hcase'.imp And.left fun ⟨hsrc, _, hrecords⟩ => ⟨hsrc, hrecords⟩
    have hwaiting : (s.setConfig src r).waitingTicket src = none := by
      refine List.find?_eq_none.2 fun k _ => ?_
      rw [waitsFor_eq_false fun j u hu => hnone j u (by rwa [hticket] at hu)]
      decide
    have hlowest : (s.setConfig src r).lowestFree = some i :=
      lowestFree_eq_some.2 ⟨(hticket i).trans hfree, fun k hk => by rw [hticket]; exact hbelow k hk⟩
    have hcreated : (s.setConfig src r).occurrenceCase src = .created i :=
      occurrenceCase_of_free (by rwa [hlevel]) (posted_of_cause hcause) hwaiting
        (by rw [setConfig_deferralOf, hd]) hlowest
    have hpoolt := hoccurs hl hcase'
    rw [occurrence_of_created hcreated] at hpoolt
    have htimebase : (s.setConfig src r).timebase = s.timebase := by rw [hset]
    have hreservation : (s.setConfig src r).reservationFor r s.timebase = s.reservationFor r s.timebase := by
      rw [hset]
      rfl
    have hconfig : (s.setConfig src r).config src = r := by rw [setConfig_config hr, if_pos rfl]
    refine ⟨fun j => ?_, ?_, ?_⟩
    · rw [State.slotAt, hpoolt, ← State.slotAt, createTicket_slotAt, State.newTicket, hconfig, htimebase, hreservation,
        hset]
      rfl
    · rw [hpoolt, createTicket_order, hset]
    · rw [hpoolt, createTicket_deferrals, hset]
end Sys2Proof.Machine
end

section
/-! SUPPORT. The reading of the fault queue: FAULT_READ (R128, R129). -/

namespace Sys2Proof.Machine

/-! ## The fault report -/

/-- Byte 0 of a fault report as a number (R147). -/
theorem faultByte_eq (overflow : Bool) {left kind : Nat} (hl : left ≤ 7) (hk : kind ≤ 3) :
    (bitAt 7 overflow ||| byteOf (16 * left + kind)) =
      BitVec.ofNat 8 ((if overflow then 128 else 0) + 16 * left + kind) := by
  obtain ⟨l, rfl⟩ : ∃ l : Fin 8, left = l.val := ⟨⟨left, Nat.lt_succ_of_le hl⟩, rfl⟩
  obtain ⟨k, rfl⟩ : ∃ k : Fin 4, kind = k.val := ⟨⟨kind, Nat.lt_succ_of_le hk⟩, rfl⟩
  clear hl hk
  revert overflow l k
  decide

theorem faultReport_none (overflow : Bool) :
    faultReport overflow 0 none = [if overflow then 128 else 0, 0xFF, 0xFF, 0xFF] := by
  cases overflow <;> rfl

/-- The fault report of a record, byte by byte (R147). -/
theorem faultReport_some (overflow : Bool) {left : Nat} (hl : left ≤ 7) (r : FaultRecord) :
    faultReport overflow left (some r) =
      match r with
        | .abandoned src hd lapses stamp =>
          BitVec.ofNat 8 ((if overflow then 128 else 0) + 16 * left + 1)
            :: (bytesOf16 (wireWord hd src.val) ++ [0xFF, BitVec.ofNat 8 lapses] ++ bytesOf48 stamp)
        | .shareLapsed src hd host stamp =>
          BitVec.ofNat 8 ((if overflow then 128 else 0) + 16 * left + 2)
            :: (bytesOf16 (wireWord hd src.val) ++ [BitVec.ofNat 8 host.val, 0] ++ bytesOf48 stamp)
        | .hostReleased host entries stamp =>
          BitVec.ofNat 8 ((if overflow then 128 else 0) + 16 * left + 3)
            :: ([0xFF, 0xFF, BitVec.ofNat 8 host.val, BitVec.ofNat 8 entries] ++ bytesOf48 stamp) := by
  unfold faultReport
  cases r <;> dsimp only [FaultRecord.kind, FaultRecord.fields] <;> rw [faultByte_eq overflow hl (by decide)]
  · rw [wordBytes_handleWord _ (by omega), timeBytes_eq]
    rfl
  · rw [wordBytes_handleWord _ (by omega), timeBytes_eq]
    rfl
  · rw [timeBytes_eq]
    rfl

/-! ## The cases of FAULT_READ -/

section
variable {s : State} {h : Port} (ha : (s.port h).state = .attached) (ht : s.token = some h)
include ha ht

/-- FAULT_READ of an empty queue is answered QUEUE_EMPTY, and clears the indicator (R128). -/
theorem exec_faultRead_of_empty (hq : s.faults.records = []) (tag : Byte) :
    exec (.faultRead h tag) s =
      .next (State.answer { s with faults := { s.faults with overflow := false } } h tag .queueEmpty
        (faultReport s.faults.overflow 0 none)) := by
  simp [exec, execFaultRead, ifSupervisor_of_holder ha ht, hq]

/-- FAULT_READ takes the oldest record off the queue and reports it (R128). -/
theorem exec_faultRead_of_record {r : FaultRecord} {rest : List FaultRecord} (hq : s.faults.records = r :: rest)
    (tag : Byte) :
    exec (.faultRead h tag) s =
      .next ((s.readFault rest).answer h tag .ok (faultReport s.faults.overflow rest.length (some r))) := by
  simp [exec, execFaultRead, ifSupervisor_of_holder ha ht, hq]

end

/-- The reading of a record with more behind it changes the queue alone (R128). -/
theorem readFault_of_more (s : State) {rest : List FaultRecord} (hrest : rest ≠ []) :
    s.readFault rest = { s with faults := { records := rest, overflow := false } } :=
  if_neg fun hempty => hrest (List.isEmpty_iff.1 hempty)

/-- The reading of the last record withdraws the pending work of source 48 (R129). -/
theorem readFault_of_last (s : State) :
    s.readFault [] = (State.withdraw { s with faults := { records := [], overflow := false } } faultSource).recompute :=
  rfl

/-- A withdrawal is that of R7. -/
theorem withdraw_withdraws (s : State) (src : SourceId) : Withdraws s (s.withdraw src) src := by
  refine ⟨withdraw_onlyPool s src, fun hw => ?_, fun i hi => ?_⟩
  · rw [State.withdraw, hw]
    rfl
  · rw [State.withdraw, Option.mem_def.1 hi]
    rfl

/-- With no source deferred a withdrawal frees the WAITING ticket and nothing more. -/
theorem withdraw_of_nothingDeferred {s : State} {src : SourceId} {i : SlotId} (hw : s.waitingTicket src = some i)
    (hn : s.NothingDeferred) : s.withdraw src = s.clearSlot i := by
  obtain ⟨u, hu, -⟩ := ticket_of_waitingTicket hw
  rw [State.withdraw, hw]
  dsimp only
  rw [freeTicket_of_nothingDeferred hn (by rw [hu]; rfl)]
  exact setDeferral_of_eq (s := s.clearSlot i) (hn src)

/-- Settles O42: the queue selects the row, and only the reading of its last record touches the pool. -/
theorem faultReadRemovesOldest : Obligations.FaultReadRemovesOldest := by
  intro h tag s hlaw ha ht
  cases hq : s.faults.records with
  | nil =>
    refine ⟨_, exec_faultRead_of_empty ha ht hq tag, rfl, ?_, nofun, fun _ => ?_, fun _ => ⟨rfl, ?_⟩, nofun⟩
    · simp [hq]
    · rw [answer_slot]
      rfl
    · rw [faultReport_none]
      exact answered_answer ..
  | cons r rest =>
    have hleft : rest.length ≤ 7 := by
      rw [State.FaultLaw, hq, Config.faultDepth, List.length_cons] at hlaw
      omega
    have hnext := exec_faultRead_of_record ha ht hq tag
    rw [faultReport_some _ hleft] at hnext
    by_cases hrest : rest = []
    · subst hrest
      obtain ⟨p, hp⟩ : ∃ p, p = State.withdraw { s with faults := { records := [], overflow := false } } faultSource :=
        ⟨_, rfl⟩
      have honly : OnlyPool { s with faults := { records := [], overflow := false } } p :=
        hp ▸ withdraw_onlyPool _ faultSource
      have hpool : p.pool = (s.withdraw faultSource).pool :=
        hp ▸ ((sameView_faults s { records := [], overflow := false }).withdraw faultSource).pool
      rw [readFault_of_last, ← hp] at hnext
      refine ⟨_, hnext, ?_, honly.faults, fun _ => ?_, fun hlength => absurd rfl hlength, nofun, ?_⟩
      · exact State.ext_fields honly.timebase honly.sources honly.faultLevel honly.lines rfl rfl honly.timers
          honly.token rfl honly.pending
      · refine portsBecome_of tag .ok _ (fun g => (honly.port g).trans ?_) rfl
        split
        next hg => rw [hg]; rfl
        next => rfl
      · rintro _ _ ⟨rfl, rfl⟩
        refine ⟨answered_answer .., fun hne => absurd rfl hne, fun _ => hpool, fun _ i hw hn => ?_, fun _ hw =>
          hpool.trans ((withdraw_withdraws s faultSource).2.1 hw)⟩
        rw [withdraw_of_nothingDeferred hw hn] at hpool
        have horder : p.pool.order = s.pool.order.erase i := by rw [hpool, clearSlot_order]
        have hdeferrals : p.pool.deferrals = s.pool.deferrals := by rw [hpool, clearSlot_deferrals]
        refine ⟨fun j => ?_, horder, hdeferrals⟩
        rw [answer_slotAt, recompute_slotAt, State.slotAt, hpool]
        exact clearSlot_slotAt s i j
    · rw [readFault_of_more s hrest] at hnext
      refine ⟨_, hnext, rfl, rfl, ?_, fun _ => ?_, nofun, ?_⟩
      · simp [hrest]
      · rw [answer_slot]
        rfl
      · rintro _ _ ⟨rfl, rfl⟩
        exact ⟨answered_answer .., fun _ => rfl, fun hnil => absurd hnil hrest, fun hnil => absurd hnil hrest,
          fun hnil => absurd hnil hrest⟩

end Sys2Proof.Machine
end

section
/-! SUPPORT. The configuration of a timer: TIMER_SETUP (R112, R144). -/

namespace Sys2Proof.Machine

/-! ## The argument bytes -/

/-- The mode of a mode code (R144). -/
def TimerMode.ofCode (n : Nat) : TimerMode :=
  match n with
  | 0 => .off
  | 1 => .periodic
  | 2 => .oneshot
  | _ => .chained

/-- The prescale of a prescale code (R144). -/
def Prescale.ofCode (n : Nat) : Prescale :=
  match n with
  | 0 => .by1
  | 1 => .by16
  | 2 => .by256
  | _ => .by4096

theorem modeOfByte_eq (b : Byte) : modeOfByte b = if 3 < b.toNat then none else some (TimerMode.ofCode b.toNat) := by
  revert b
  decide

theorem prescaleOfByte_eq (b : Byte) :
    prescaleOfByte b = if 3 < b.toNat then none else some (Prescale.ofCode b.toNat) := by
  revert b
  decide

/-- Of the four modes OFF and CHAINED have the codes 0 and 3. -/
theorem ofCode_eq_off (b : Byte) (h : ¬ 3 < b.toNat) :
    (TimerMode.ofCode b.toNat = .off ↔ b = 0) ∧ (TimerMode.ofCode b.toNat = .chained ↔ b = 3) := by
  revert b
  decide

/-- A gate byte that is out of range gives nothing. -/
theorem gateOfByte_eq_none (b : Byte) : gateOfByte b = none ↔ b ≠ 0xFF ∧ 31 < b.toNat := by
  revert b
  decide

/-- A gate byte FFh gives no gate line, and one in range the line of its value (R144). -/
theorem gateOfByte_some {b : Byte} {gate : Option LineId} (h : gateOfByte b = some gate) :
    gate.map Fin.val = if b = 0xFF#8 then none else some b.toNat := by
  unfold gateOfByte at h
  split at h
  next hb =>
    obtain rfl := Option.some.inj h
    rw [if_pos hb]
    rfl
  next hb =>
    rw [if_neg hb]
    split at h
    next => exact Option.some.inj h ▸ rfl
    next => cases h

theorem gateOfByte_isSome {b : Byte} {gate : Option LineId} (h : gateOfByte b = some gate) :
    gate.isSome = true ↔ b ≠ 0xFF#8 := by
  have hmap := gateOfByte_some h
  by_cases hb : b = 0xFF#8
  · rw [if_pos hb, Option.map_eq_none_iff] at hmap
    simp [hmap, hb]
  · rw [if_neg hb] at hmap
    obtain ⟨g, rfl, -⟩ := Option.map_eq_some_iff.1 hmap
    simp [hb]

/-! ## The record that TIMER_SETUP gives -/

section
variable {mode prescale gate chain timer : Byte} {reload : BitVec 16}

/-- The arguments of a TIMER_SETUP that R112 refuses. -/
def SetupRefused (mode prescale : Byte) (reload : BitVec 16) (gate chain timer : Byte) : Prop :=
  3 < mode.toNat ∨ 3 < prescale.toNat ∨ reload = 0 ∨ (gate ≠ 0xFF ∧ 31 < gate.toNat) ∨ 7 < chain.toNat
    ∨ (gate ≠ 0xFF ∧ (mode = 0 ∨ mode = 3)) ∨ (mode = 3 ∧ chain = timer)

/-- A timer byte and a chain byte name one timer exactly when they are equal. -/
theorem timerOfByte_inj {n c : TimerId} (ht : timer.toNat = n.val) (hc : timerOfByte chain = some c) :
    c = n ↔ chain = timer := by
  have hval := timerOfByte_eq_some.1 hc
  rw [Fin.ext_iff, ← ht, ← hval]
  exact ⟨BitVec.eq_of_toNat_eq, congrArg _⟩

/-- Arguments that R112 refuses give no record. -/
theorem setUp_of_refused (t : Timer) {n : TimerId} (ht : timer.toNat = n.val)
    (hr : SetupRefused mode prescale reload gate chain timer) : t.setUp n mode prescale reload gate chain = none := by
  unfold Timer.setUp
  rw [modeOfByte_eq, prescaleOfByte_eq]
  by_cases hm : 3 < mode.toNat
  · rw [if_pos hm]
  by_cases hp : 3 < prescale.toNat
  · rw [if_pos hp, if_neg hm]
  rw [if_neg hm, if_neg hp]
  cases hg : gateOfByte gate with
  | none => rfl
  | some g =>
    cases hc : timerOfByte chain with
    | none => rfl
    | some c =>
      refine if_pos ?_
      have hrange : ¬ (gate ≠ 0xFF ∧ 31 < gate.toNat) := fun hout => by
        rw [(gateOfByte_eq_none gate).2 hout] at hg
        cases hg
      have hchain : ¬ 7 < chain.toNat := fun hout => by
        rw [timerOfByte_eq_none.2 hout] at hc
        cases hc
      obtain ⟨hoff, hchained⟩ := ofCode_eq_off mode hm
      rw [gateOfByte_isSome hg, hoff, hchained, timerOfByte_inj ht hc]
      exact hr.elim (absurd · hm) fun hr => hr.elim (absurd · hp) fun hr => hr.elim .inl fun hr =>
        hr.elim (absurd · hrange) fun hr => hr.elim (absurd · hchain) .inr

/-- Any other arguments give a record, which sets the configuration and leaves the rest of the timer (R112). -/
theorem setUp_of_accepted (t : Timer) {n : TimerId} (ht : timer.toNat = n.val)
    (hr : ¬ SetupRefused mode prescale reload gate chain timer) :
    ∃ x, t.setUp n mode prescale reload gate chain = some x
      ∧ x.mode = TimerMode.ofCode mode.toNat ∧ x.prescale = Prescale.ofCode prescale.toNat ∧ x.reload = reload
      ∧ x.gate.map Fin.val = (if gate = 0xFF then none else some gate.toNat)
      ∧ x.chain.val = (if mode = 3 then chain.toNat else 0)
      ∧ x.count = t.count ∧ x.running = t.running ∧ x.owner = t.owner := by
  obtain ⟨hm, hp, hreload, hg, hc, hrest⟩ : ¬ 3 < mode.toNat ∧ ¬ 3 < prescale.toNat ∧ reload ≠ 0
      ∧ ¬ (gate ≠ 0xFF ∧ 31 < gate.toNat) ∧ ¬ 7 < chain.toNat
      ∧ ¬ ((gate ≠ 0xFF ∧ (mode = 0 ∨ mode = 3)) ∨ (mode = 3 ∧ chain = timer)) := by
    simpa only [SetupRefused, not_or] using hr
  obtain ⟨g, hgate⟩ := Option.ne_none_iff_exists'.1 (fun hnone => hg ((gateOfByte_eq_none gate).1 hnone))
  obtain ⟨c, hchain⟩ := Option.ne_none_iff_exists'.1 (fun hnone => hc (timerOfByte_eq_none.1 hnone))
  obtain ⟨hoff, hchained⟩ := ofCode_eq_off mode hm
  have hok : ¬ (reload = 0 ∨ (g.isSome ∧ (TimerMode.ofCode mode.toNat = .off ∨ TimerMode.ofCode mode.toNat = .chained))
      ∨ (TimerMode.ofCode mode.toNat = .chained ∧ c = n)) := by
    rw [gateOfByte_isSome hgate, hoff, hchained, timerOfByte_inj ht hchain]
    exact fun hbad => hbad.elim hreload hrest
  refine ⟨{ t with mode := TimerMode.ofCode mode.toNat, prescale := Prescale.ofCode prescale.toNat, reload := reload
                   gate := g, chain := if TimerMode.ofCode mode.toNat = .chained then c else 0 },
    ?_, rfl, rfl, rfl, gateOfByte_some hgate, ?_, rfl, rfl, rfl⟩
  · unfold Timer.setUp
    rw [modeOfByte_eq, prescaleOfByte_eq, if_neg hm, if_neg hp, hgate, hchain]
    exact if_neg hok
  · dsimp only
    rw [apply_ite Fin.val, timerOfByte_eq_some.1 hchain]
    simp only [hchained]
    rfl

end

/-- TIMER_SETUP on a timer (R112). -/
def State.setUpTimer (s : State) (h : Port) (tag mode prescale : Byte) (reload : BitVec 16) (gate chain : Byte)
    (n : TimerId) : State :=
  if (s.timer n).running then s.answerTimer h tag .busy n
  else
    match (s.timer n).setUp n mode prescale reload gate chain with
    | none => s.answerTimer h tag .badArg n
    | some t => (s.setTimer n t).answerTimer h tag .ok n

theorem exec_timerSetup (h : Port) (tag timer mode prescale : Byte) (reload : BitVec 16) (gate chain : Byte)
    (s : State) :
    exec (.timerSetup h tag timer mode prescale reload gate chain) s =
      .next (s.onTimer h tag timer (s.setUpTimer h tag mode prescale reload gate chain)) := by
  change Host.Outcome.next _ = _
  unfold State.onTimer
  cases timerOfByte timer <;> rfl

/-- Settles O29: a running timer is only reported, and the arguments decide what a stopped one becomes. -/
theorem timerSetupConfigures : Obligations.TimerSetupConfigures := by
  intro h tag timer mode prescale reload gate chain s
  obtain ⟨t, hnext, hdetached, hattached⟩ := onTimer_outcome
    (P := fun n t => t = s.setUpTimer h tag mode prescale reload gate chain n)
    (exec_timerSetup h tag timer mode prescale reload gate chain s) fun _ => rfl
  refine ⟨t, hnext, hdetached, fun ha => ⟨(hattached ha).1, fun n hn => ?_⟩⟩
  have ht := (hattached ha).2 n hn
  refine ⟨fun hr => ?_, fun hr => ?_⟩
  · rw [ht, State.setUpTimer, if_pos hr]
    exact answerTimer_outcome ..
  rw [State.setUpTimer, if_neg (by simp [hr])] at ht
  split
  next hrefused =>
    rw [setUp_of_refused (s.timer n) hn hrefused] at ht
    rw [ht]
    exact answerTimer_outcome ..
  next haccepted =>
    obtain ⟨x, hx, hmode, hprescale, hreload, hgate, hchain, hcount, hrunning, howner⟩ :=
      setUp_of_accepted (s.timer n) hn haccepted
    rw [hx] at ht
    obtain ⟨hframe, hanswer⟩ := setTimer_answerTimer_outcome ht
    have htimer : t.timer n = x := by
      rw [hframe]
      exact look_place_same ..
    rw [htimer] at hanswer ⊢
    exact ⟨hframe, hmode, hprescale, hreload, hgate, hchain, hcount, hrunning.trans hr, howner, hanswer⟩
end Sys2Proof.Machine
end

section
/-! SUPPORT. The expiries that have rows of their own: SERVICE_EXPIRY, COLLECTION_EXPIRY and AFFINITY_EXPIRY (R47, R79 to
R87). -/

namespace Sys2Proof.Machine

/-! ## The rows of the expiries -/

/-- An expiry that is not due changes nothing (log 7). -/
theorem expiryRow_of_not_due {s : State} {e : AdvanceEvent} (h : s.isDue e = false) (chainOrder : List TimerId) :
    s.expiryRow chainOrder e = s := by
  rw [State.expiryRow, if_neg (by simp [h])]

/-- An expiry that is due is taken, and the offers follow (R79). -/
theorem expiryRow_of_due {s : State} {e : AdvanceEvent} (h : s.isDue e = true) (chainOrder : List TimerId) :
    s.expiryRow chainOrder e = (s.takeEvent 0 chainOrder e).recompute := if_pos h

/-- A service expiry is due where an ACTIVE entry stands that ends at this instant (R79). -/
theorem isDue_service_iff {s : State} {h : Port} {k : Fin 4} :
    s.isDue (.service h k) = true ↔
      ∃ e, (s.port h).stack[k.val]? = some e ∧ e.state = .active ∧ e.expiry = some s.timebase := by
  refine ⟨fun hd => active_of_isDue hd, fun ⟨e, he, hactive, hexpiry⟩ => ?_⟩
  unfold State.isDue State.entryAt
  dsimp only
  rw [he]
  simp [hactive, hexpiry]

/-- A collection expiry is due where a round stands that ends at this instant (R79). -/
theorem isDue_collection_iff {s : State} {i : SlotId} :
    s.isDue (.collection i) = true ↔
      ∃ u owed claimed, s.ticketAt i = some u ∧ u.standing = .spread owed claimed (some s.timebase) := by
  unfold State.isDue
  dsimp only
  cases hu : s.ticketAt i with
  | none => simp
  | some u => cases hs : u.standing <;> simp [hs]

/-- An affinity expiry is due where a reservation stands that ends at this instant (R47). -/
theorem isDue_affinity_iff {s : State} {i : SlotId} :
    s.isDue (.affinity i) = true ↔
      ∃ u r, s.ticketAt i = some u ∧ u.reservation = some r ∧ r.expiry = s.timebase := by
  unfold State.isDue
  dsimp only
  cases hu : s.ticketAt i with
  | none => simp
  | some u => cases hr : u.reservation <;> simp [hr]

/-! ## AFFINITY_EXPIRY -/

/-- Settles O54: the row ends the reservation of the slot's ticket where it is due. -/
theorem affinityExpiryEndsReservation : Obligations.AffinityExpiryEndsReservation := by
  intro i s
  refine ⟨_, rfl, fun hnot => expiryRow_of_not_due ?_ [], fun u r hu hr hexpiry => ?_⟩
  · rw [← Bool.not_eq_true, isDue_affinity_iff]
    rintro ⟨u, r, hu, hr, hexpiry⟩
    exact hnot u hu r hr hexpiry
  · have hdue : s.isDue (.affinity i) = true := isDue_affinity_iff.2 ⟨u, r, hu, hr, hexpiry⟩
    have htaken : s.expiryRow [] (.affinity i) = (s.setTicket i { u with reservation := none }).recompute := by
      rw [expiryRow_of_due hdue, State.takeEvent, if_pos hdue, State.endReservation, hu]
    rw [htaken]
    refine ⟨rfl, fun j => State.setTicket_slotAt s i j _, fun p => ?_⟩
    rw [recompute_port, recompute_offer]
    rfl

/-! ## The lapse of an entry -/

/-- The state in which an entry of host h is marked LAPSED, and its ticket is still to be dealt with (R80). -/
def State.marked (s : State) (h : Port) (k : Fin 4) (e : Entry) : State :=
  s.setStack h ((s.port h).stack.set k.val { e with state := .lapsed })

theorem sameView_marked (s : State) (h : Port) (k : Fin 4) (e : Entry) : SameView s (s.marked h k e) :=
  sameView_setStack s h _

section
variable {s : State} {h : Port} {k : Fin 4} {e : Entry} {u : Ticket} (he : (s.port h).stack[k.val]? = some e)
  (hactive : e.state = .active) (hexpiry : e.expiry = some s.timebase)
include he hactive hexpiry

/-- A SERVICE_EXPIRY that is due marks the entry and deals with its ticket; beside the pool, the fault queue and the
ports it changes nothing (R80). -/
theorem serviceExpiry_outcome {r : State} (hr : (s.marked h k e).lapseTicket h e.handle = r) :
    ∃ t : State, exec (.serviceExpiry h k) s = .next t
      ∧ t = { s with pool := t.pool, ports := t.ports, faults := t.faults }
      ∧ t.pool = r.pool ∧ t.faults = r.faults
      ∧ PortsFollow s t h { s.port h with stack := (s.port h).stack.set k.val { e with state := .lapsed } } := by
  have hdue : s.isDue (.service h k) = true := isDue_service_iff.2 ⟨e, he, hactive, hexpiry⟩
  have hlapse : s.lapseEntry h k = r := hr ▸ lapseEntry_of_entry he
  have hrow : s.expiryRow [] (.service h k) = r.recompute := by
    rw [expiryRow_of_due hdue, State.takeEvent, if_pos hdue, ← hlapse]
  refine ⟨r.recompute, congrArg Host.Outcome.next hrow, ?_, rfl, rfl, fun g => ?_⟩
  · have hframe := lapseEntry_frame s h k
    rw [hlapse] at hframe
    rw [hframe]
    rfl
  · rw [recompute_port, recompute_offer, ← hlapse, lapseEntry_port he]

end

/-- The handle that names a ticket is that of its slot. -/
theorem handleOf_of_named {s : State} {hd : Handle} {u : Ticket} (hu : s.named hd = some u) :
    s.handleOf hd.slot = hd := by
  rw [State.handleOf, (ticketAt_of_named hu).2]

/-- An append is an occurrence of source 48 as far as the pool goes (R127). -/
theorem sameView_appendFault {s t : State} (h : SameView s t) (r : FaultRecord) :
    SameView (s.occurrence faultSource) (t.appendFault r) := by
  rw [appendFault_eq]
  refine SameView.occurrence (t := { t with faults := t.faults.appended r }) ?_ faultSource 0
  exact ⟨h.timebase, h.sources, h.faultLevel, h.token, h.pool, h.attached⟩

/-- Settles O50: at the retry limit the lapse is a freeing and an append. -/
theorem serviceExpiryAbandons : Obligations.ServiceExpiryAbandons := by
  intro h g k s
  refine ⟨⟨_, rfl, fun hnot => expiryRow_of_not_due ?_ []⟩, fun e u he hactive hexpiry hu hheld hlimit => ?_⟩
  · rw [← Bool.not_eq_true, isDue_service_iff]
    rintro ⟨e, he, hactive, hexpiry⟩
    rcases hnot e he with hlapsed | hne
    · rw [hactive] at hlapsed
      cases hlapsed
    · exact hne hexpiry
  · have hnamed : (s.marked h k e).named e.handle = some u := hu
    have hlapse : (s.marked h k e).lapseTicket h e.handle =
        ((s.marked h k e).freeTicket e.handle.slot).appendFault
          (.abandoned u.source e.handle (u.lapses + 1) s.timebase) := by
      rw [State.lapseTicket, hnamed]
      dsimp only
      rw [hheld]
      dsimp only
      rw [lapseSingle_of_limit hlimit.le, handleOf_of_named hnamed]
      rfl
    have hview := sameView_appendFault ((sameView_marked s h k e).freeTicket e.handle.slot)
      (.abandoned u.source e.handle (u.lapses + 1) s.timebase)
    obtain ⟨t, hnext, hframe, hpool, hfaults, hports⟩ := serviceExpiry_outcome he hactive hexpiry hlapse
    rw [hview.pool] at hpool
    rw [appendFault_faults, (freeTicket_onlyPool _ _).faults] at hfaults
    refine ⟨t, hnext, hframe, hpool, fun hn hdisabled => ?_, hfaults, hports⟩
    have hlive : (s.ticketAt e.handle.slot).isSome = true := by
      rw [(ticketAt_of_named hu).1]
      rfl
    have hlevel : ((s.freeTicket e.handle.slot).config faultSource).level = 0 := by
      rw [(freeTicket_onlyPool s _).config]
      exact hdisabled
    rw [occurrence_of_disabled hlevel, freeTicket_of_nothingDeferred hn hlive] at hpool
    exact cleared_of_pool hu hpool

/-- Settles O52: the lapse of a share is a leaving of the round and an append. -/
theorem serviceExpiryDropsShare : Obligations.ServiceExpiryDropsShare := by
  intro h k s e u owed claimed expiry he hactive hexpiry hu hspread
  have hnamed : (s.marked h k e).named e.handle = some u := hu
  obtain ⟨hticket, -⟩ := ticketAt_of_named hu
  have hlapse : (s.marked h k e).lapseTicket h e.handle =
      ((s.marked h k e).leaveRound h e.handle.slot).appendFault (.shareLapsed u.source e.handle h s.timebase) := by
    rw [State.lapseTicket, hnamed]
    dsimp only
    rw [hspread]
    dsimp only
    rw [State.lapseShare, handleOf_of_named hnamed]
    rfl
  have hview := sameView_appendFault ((sameView_marked s h k e).leaveRound ⟨fun _ => rfl, rfl⟩ h e.handle.slot)
    (.shareLapsed u.source e.handle h s.timebase)
  obtain ⟨t, hnext, hframe, hpool, hfaults, hports⟩ := serviceExpiry_outcome he hactive hexpiry hlapse
  rw [hview.pool] at hpool
  rw [appendFault_faults, (leaveRound_onlyPool _ _ _).faults] at hfaults
  refine ⟨t, hnext, hframe, fun hothers => ?_, fun hlast => ?_, hfaults, hports⟩
  · rw [hpool, leaveRound_of_owed hticket hspread hothers]
    rfl
  · rw [hpool, leaveRound_of_last hticket hspread hlast, settle_eq]

/-! ## COLLECTION_EXPIRY -/

/-- One append after the other is one occurrence of source 48 after the other, as far as the pool goes. -/
theorem sameView_foldl_appendFault (f : Port → FaultRecord) (l : List Port) {s t : State} (h : SameView s t) :
    SameView (l.foldl (fun (x : State) _ => x.occurrence faultSource) s)
      (l.foldl (fun x p => x.appendFault (f p)) t) := by
  induction l generalizing s t with
  | nil => exact h
  | cons p l ih => exact ih (sameView_appendFault h (f p))

theorem foldl_appendFault_faults (f : Port → FaultRecord) (l : List Port) (s : State) :
    (l.foldl (fun x p => x.appendFault (f p)) s).faults = l.foldl (fun q p => q.appended (f p)) s.faults := by
  induction l generalizing s with
  | nil => rfl
  | cons p l ih => rw [List.foldl_cons, ih, appendFault_faults, List.foldl_cons]

/-- The hosts that are owed and have not claimed, in ascending order. -/
theorem members_unclaimed (owed claimed : HostSet) :
    HostSet.members (owed &&& ~~~ claimed) =
      (List.finRange 4).filter fun p => HostSet.has owed p && !HostSet.has claimed p := by
  refine List.filter_congr fun p _ => ?_
  revert owed claimed p
  decide

/-- Settles O53: the round keeps its claimers or settles, and then come the appends. -/
theorem collectionExpiryDropsUnclaimed : Obligations.CollectionExpiryDropsUnclaimed := by
  intro i s
  refine ⟨⟨_, rfl, fun hnot => expiryRow_of_not_due ?_ []⟩, fun u owed claimed dropped hu hspread hdropped => ?_⟩
  · rw [← Bool.not_eq_true, isDue_collection_iff]
    rintro ⟨u, owed, claimed, hu, hspread⟩
    exact hnot u hu owed claimed hspread
  obtain ⟨kept, hkept⟩ : ∃ kept, kept = if owed &&& claimed = 0 then s.settle i u.source
      else s.setTicket i { u with standing := .spread (owed &&& claimed) claimed none } := ⟨_, rfl⟩
  have honly : OnlyPool s kept := by
    rw [hkept]
    split
    · exact settle_onlyPool s i _
    · rfl
  have hdue : s.isDue (.collection i) = true := isDue_collection_iff.2 ⟨u, owed, claimed, hu, hspread⟩
  have hcollect : s.collect i =
      dropped.foldl (fun x p => x.appendFault (.shareLapsed u.source (s.handleOf i) p s.timebase)) kept := by
    rw [State.collect, hu]
    dsimp only
    rw [hspread]
    dsimp only
    rw [members_unclaimed, ← hdropped, hkept]
  have hrow : s.expiryRow [] (.collection i) = (s.collect i).recompute := by
    rw [expiryRow_of_due hdue, State.takeEvent, if_pos hdue]
  have hframe := collect_onlyPoolFaults s i
  have hpool : (s.collect i).pool = (dropped.foldl (fun (x : State) _ => x.occurrence faultSource) kept).pool := by
    rw [hcollect]
    exact (sameView_foldl_appendFault _ dropped (.refl kept)).pool
  refine ⟨_, congrArg Host.Outcome.next hrow, ?_, fun hne => ?_, fun h0 => ?_, ?_, fun p => ?_⟩
  · exact State.ext_fields hframe.timebase hframe.sources hframe.faultLevel hframe.lines rfl rfl hframe.timers
      hframe.token rfl hframe.pending
  · rw [if_neg hne] at hkept
    rw [recompute_pool, hpool, hkept]
    rfl
  · rw [if_pos h0, settle_eq] at hkept
    rw [recompute_pool, hpool, hkept]
  · rw [recompute_faults, hcollect, foldl_appendFault_faults, honly.faults]
  · rw [recompute_port, recompute_offer, hframe.port]

/-! ## The return of a ticket -/

/-- The condition behind a returned ticket has gone exactly when it does not stand (R83). -/
theorem conditionGone_iff (s : State) (src : SourceId) : s.conditionGone src = true ↔ ¬ s.StillStands src := by
  unfold State.conditionGone State.StillStands
  rw [Bool.or_eq_true, Bool.and_eq_true, beq_iff_eq, List.isEmpty_iff]
  by_cases hi : s.lineInactive src = true
  · simp [hi]
  · simp [hi]

/-- The survivor of a merge is that of R84. -/
theorem mergedTicket_eq (u v : Ticket) (older : Bool) : mergedTicket u v older = v.joinedBy u older := rfl

/-- The survivor of a merge, field by field. -/
theorem joinedBy_decide (u v : Ticket) (older : Prop) [Decidable older] :
    v.joinedBy u older =
      { v with
        count := min (u.count + v.count) 255
        stamp := if older then u.stamp else v.stamp
        lapses :=
          if v.policy = .each then 0 else min (if older then u.lapses else v.lapses) (v.retryLimit.val - 1) } := by
  unfold Ticket.joinedBy
  simp only [decide_eq_true_eq]

/-- A returned ticket is given back by the first case of R83 that applies. -/
theorem returnTicket_givesBack (s : State) (i : SlotId) : GivesBack s (s.returnTicket i) i := by
  intro u hu hw
  have hgone := conditionGone_iff s u.source
  rcases returnTicket_cases (Option.mem_def.1 hu) with ⟨hc, heq⟩ | ⟨hc, hrest⟩
  · rw [hc] at hgone
    exact ⟨fun _ => heq, fun hstill => absurd hstill (hgone.1 rfl)⟩
  · rw [hc] at hgone
    refine ⟨fun hnot => absurd (hgone.2 hnot) (by decide), fun _ => ⟨fun w hwait v hv hp => ?_, fun hno => ?_⟩⟩
    · have htarget : s.mergeTarget u.source = some w := by
        rw [State.mergeTarget, hp]
        exact hwait
      rcases hrest with ⟨w', hw', heq⟩ | ⟨hnone, -⟩
      · obtain rfl := Option.some.inj (htarget.symm.trans hw')
        have holder (j k : SlotId) : s.olderThan j k = true ↔ s.pool.order.idxOf j < s.pool.order.idxOf k :=
          decide_eq_true_iff
        rw [heq, mergeInto_eq (Option.mem_def.1 hu) (Option.mem_def.1 hv), mergedTicket_eq, mergedOrder]
        simp only [holder]
        rfl
      · rw [htarget] at hnone
        cases hnone
    · have htarget : s.mergeTarget u.source = none := by
        rw [State.mergeTarget]
        split
        next => rfl
        next hp => exact hno.resolve_left hp
      rcases hrest with ⟨w', hw', -⟩ | ⟨-, ⟨d, hd, heq⟩ | ⟨hd, heq⟩⟩
      · rw [htarget] at hw'
        cases hw'
      · rw [heq, hd]
        rfl
      · rw [heq, hd]
        have hsame : place s.pool.deferrals u.source none = s.pool.deferrals := by
          rw [← hd, State.deferralOf, place_look]
        rw [hsame]
        rfl

/-- The creation order after a merge into the older place, once the returned ticket has left it (R27). -/
theorem erase_mergedOrder {i w : SlotId} (hne : w ≠ i) {l : List SlotId} (hl : l.Nodup) :
    (l.flatMap fun j => if j = i then [w, i] else [j]).erase i = l.map fun j => if j = i then w else j := by
  induction l with
  | nil => rfl
  | cons x l ih =>
    obtain ⟨hx, hl⟩ := List.nodup_cons.1 hl
    rw [List.flatMap_cons, List.map_cons]
    by_cases hxi : x = i
    · subst hxi
      have hrest : (l.flatMap fun j => if j = x then [w, x] else [j]) = l.map fun j => if j = x then w else j := by
        rw [List.flatMap_congr (g := fun j => [if j = x then w else j]) fun j hj => ?_, List.map_eq_flatMap]
        have hjx : j ≠ x := fun h => hx (h ▸ hj)
        rw [if_neg hjx, if_neg hjx]
      rw [if_pos rfl, if_pos rfl, ← hrest]
      simp [hne]
    · rw [if_neg hxi, if_neg hxi, List.singleton_append, List.erase_cons_tail (by simpa using hxi), ih hl]

/-- The lapse of a HELD ticket below its retry limit is counted, and the ticket returned (R81, R83). -/
theorem serviceExpiry_returns {h g : Port} {k : Fin 4} {s : State} {e : Entry} {u : Ticket}
    (he : (s.port h).stack[k.val]? = some e) (hactive : e.state = .active) (hexpiry : e.expiry = some s.timebase)
    (hu : s.named e.handle = some u) (hheld : u.standing = .held g) (hbelow : u.lapses + 1 < u.retryLimit.val) :
    ∃ t : State, exec (.serviceExpiry h k) s = .next t
      ∧ t = { s with pool := t.pool, ports := t.ports }
      ∧ PortsFollow s t h { s.port h with stack := (s.port h).stack.set k.val { e with state := .lapsed } }
      ∧ t.pool = ((s.setTicket e.handle.slot { u with lapses := u.lapses + 1 }).returnTicket e.handle.slot).pool := by
  have hnamed : (s.marked h k e).named e.handle = some u := hu
  have hlapse : (s.marked h k e).lapseTicket h e.handle =
      ((s.marked h k e).setTicket e.handle.slot { u with lapses := u.lapses + 1 }).returnTicket e.handle.slot := by
    rw [State.lapseTicket, hnamed]
    dsimp only
    split
    next => exact lapseSingle_of_below hbelow
    next hspread => rw [hheld] at hspread; cases hspread
    next hwaiting => rw [hheld] at hwaiting; cases hwaiting
  have hview :=
    ((sameView_marked s h k e).setTicket e.handle.slot { u with lapses := u.lapses + 1 }).returnTicket ⟨fun _ => rfl, rfl⟩
    e.handle.slot
  obtain ⟨t, hnext, hframe, hpool, hfaults, hports⟩ := serviceExpiry_outcome he hactive hexpiry hlapse
  rw [hview.pool] at hpool
  rw [(returnTicket_onlyPool _ _).faults] at hfaults
  refine ⟨t, hnext, hframe.trans ?_, hports, hpool⟩
  rw [hfaults]
  rfl

/-- A ticket in service is none that its source finds WAITING, whatever is written in its place. -/
theorem waitingTicket_setTicket {s : State} {i : SlotId} {u v : Ticket} (hu : s.ticketAt i = some u)
    (hw : u.waits = false) (hv : v.waits = false) (src : SourceId) :
    (s.setTicket i v).waitingTicket src = s.waitingTicket src := by
  refine congrArg (fun p => s.pool.order.find? p) (funext fun j => ?_)
  have huw : (u.standing == Standing.waiting) = false := hw
  have hvw : (v.standing == Standing.waiting) = false := hv
  unfold State.waitsFor
  rw [State.setTicket_ticketAt]
  by_cases hj : j = i
  · subst hj
    simp [hu, huw, hvw]
  · rw [if_neg hj]

section
variable {s : State} {i : SlotId} {u : Ticket} (hu : s.ticketAt i = some u) (hw : u.waits = false)
include hu hw

/-- A return whose condition has gone, with no source deferred: the slot is cleared (R83). -/
theorem returnTicket_of_gone (hgone : ¬ s.StillStands u.source) (hn : s.NothingDeferred) :
    s.returnTicket i = s.clearSlot i := by
  rw [(returnTicket_givesBack s i u hu hw).1 hgone, freeTicket_of_nothingDeferred hn (by rw [hu]; rfl)]

variable (hstill : s.StillStands u.source)
include hstill

/-- A return that merges, with no source deferred: the survivor stands in the older place, and the slot is cleared
(R27, R84). -/
theorem returnTicket_of_merge (hnodup : s.pool.order.Nodup) {w : SlotId} {v : Ticket}
    (hwait : s.waitingTicket u.source = some w) (hv : s.ticketAt w = some v) (hp : SourceId.posted u.source = false)
    (hn : s.NothingDeferred) :
    (∀ j : SlotId, (s.returnTicket i).slotAt j =
      if j = i then { generation := (s.slotAt i).generation + 1, ticket := none }
      else if j = w then
        { s.slotAt w with ticket := some (v.joinedBy u (s.pool.order.idxOf i < s.pool.order.idxOf w)) }
      else s.slotAt j)
    ∧ (s.returnTicket i).pool.deferrals = s.pool.deferrals
    ∧ (s.returnTicket i).pool.order =
        if s.pool.order.idxOf i < s.pool.order.idxOf w then
          (s.pool.order.erase w).map fun j => if j = i then w else j
        else s.pool.order.erase i := by
  have hne : i ≠ w := by
    rintro rfl
    obtain ⟨x, hx, -, hxw⟩ := ticket_of_waitingTicket hwait
    obtain rfl := Option.some.inj (hu.symm.trans hx)
    rw [hw] at hxw
    cases hxw
  have hreturned := ((returnTicket_givesBack s i u hu hw).2 hstill).1 w hwait v hv hp
  obtain ⟨m, hm⟩ : ∃ m, m = (s.setTicket w (v.joinedBy u (s.pool.order.idxOf i < s.pool.order.idxOf w))).setOrder
      (if s.pool.order.idxOf i < s.pool.order.idxOf w then
        (s.pool.order.erase w).flatMap fun j => if j = i then [w, i] else [j]
      else s.pool.order) := ⟨_, rfl⟩
  have hmslot (j : SlotId) : m.slotAt j =
      if j = w then
        { s.slotAt w with ticket := some (v.joinedBy u (s.pool.order.idxOf i < s.pool.order.idxOf w)) }
      else s.slotAt j := by
    rw [hm, State.setOrder_slotAt, State.setTicket_slotAt]
  have hmticket : m.ticketAt i = some u := by
    rw [State.ticketAt, hmslot, if_neg hne]
    exact hu
  have hcleared : s.returnTicket i = m.clearSlot i := by
    rw [← freeTicket_of_nothingDeferred (s := m) (by rw [hm]; exact hn) (by rw [hmticket]; rfl), hm]
    exact hreturned
  rw [hcleared]
  refine ⟨fun j => ?_, by rw [clearSlot_deferrals, hm]; rfl, ?_⟩
  · rw [clearSlot_slotAt, hmslot, hmslot, if_neg hne]
  · rw [clearSlot_order, hm, State.setOrder_pool]
    dsimp only
    split
    · exact erase_mergedOrder hne.symm (hnodup.erase w)
    · rfl

/-- A return that neither frees nor merges: the ticket waits in its own place, with its source's deferral (R83). -/
theorem returnTicket_of_wait (hno : SourceId.posted u.source = true ∨ s.waitingTicket u.source = none) :
    (s.returnTicket i).pool.order = s.pool.order
    ∧ (∀ j : SlotId, (s.returnTicket i).slotAt j =
      if j = i then
        { s.slotAt i with ticket := some { u with
            standing := .waiting
            count := match s.deferralOf u.source with
              | none => u.count
              | some d => min (u.count + d.count) 255 } }
      else s.slotAt j)
    ∧ ∀ src : SourceId, (s.returnTicket i).deferralOf src = if src = u.source then none else s.deferralOf src := by
  rw [((returnTicket_givesBack s i u hu hw).2 hstill).2 hno]
  exact ⟨rfl, fun j => look_place .., fun src => look_place ..⟩

end

/-- Settles O51: the lapse counted, the ticket is given back by the case of R83 that applies. -/
theorem serviceExpiryReturnsTicket : Obligations.ServiceExpiryReturnsTicket := by
  refine ⟨returnTicket_givesBack, fun h g k s e u ho he hactive hexpiry hu hheld hbelow => ?_⟩
  obtain ⟨t, hnext, hframe, hports, hpool⟩ := serviceExpiry_returns he hactive hexpiry hu hheld hbelow
  obtain ⟨hticket, hgeneration⟩ := ticketAt_of_named hu
  obtain ⟨i, hi⟩ : ∃ i, i = e.handle.slot := ⟨_, rfl⟩
  obtain ⟨u', hu'⟩ : ∃ u' : Ticket, u' = { u with lapses := u.lapses + 1 } := ⟨_, rfl⟩
  have hsource : u'.source = u.source := by rw [hu']
  have huw : u.waits = false := by simp [Ticket.waits, hheld]
  have huw' : u'.waits = false := by rw [hu']; exact huw
  rw [← hi] at hticket hgeneration hpool ⊢
  rw [← hu'] at hpool
  have hqticket : (s.setTicket i u').ticketAt i = some u' := by rw [State.setTicket_ticketAt, if_pos rfl]
  have hqslot (j : SlotId) :
      (s.setTicket i u').slotAt j = if j = i then { s.slotAt i with ticket := some u' } else s.slotAt j :=
    State.setTicket_slotAt s i j u'
  have hqwaiting : (s.setTicket i u').waitingTicket u'.source = s.waitingTicket u.source := by
    rw [hsource]
    exact waitingTicket_setTicket hticket huw huw' u.source
  have hslot (j : SlotId) : t.slotAt j = ((s.setTicket i u').returnTicket i).slotAt j := by
    rw [State.slotAt, hpool]
    rfl
  have hstands : (s.setTicket i u').StillStands u'.source ↔ s.StillStands u.source := by rw [hsource]; rfl
  refine ⟨t, hnext, hframe, hports, by rw [hpool, hu']; rfl, fun hcond hn => ?_, fun hline hfault => ?_⟩
  · have hnot : ¬ (s.setTicket i u').StillStands u'.source := by
      rw [hstands]
      rintro ⟨hline, hfault⟩
      rcases hcond with hinactive | ⟨hsrc, hrecords⟩
      · rw [hline] at hinactive
        cases hinactive
      · exact hfault hsrc hrecords
    rw [returnTicket_of_gone hqticket huw' hnot hn] at hpool hslot
    refine ⟨fun j => ?_, by rw [hpool]; rfl, by rw [hpool]; rfl⟩
    rw [hslot, clearSlot_slotAt, hqslot, hqslot, if_pos rfl, ← hgeneration]
    split <;> rfl
  · have hstill := hstands.2 ⟨hline, hfault⟩
    refine ⟨fun w v hp hwait hv hn => ?_, fun hno => ?_⟩
    · have hne : w ≠ i := by
        rintro rfl
        obtain ⟨x, hx, -, hxw⟩ := ticket_of_waitingTicket hwait
        obtain rfl := Option.some.inj (hticket.symm.trans hx)
        rw [huw] at hxw
        cases hxw
      have hqv : (s.setTicket i u').ticketAt w = some v := by rw [State.setTicket_ticketAt, if_neg hne, hv]
      obtain ⟨hslots, hdeferrals, horder⟩ := returnTicket_of_merge hqticket huw' hstill ho.1
        (hqwaiting.trans hwait) hqv (by rw [hsource]; exact hp) hn
      refine ⟨fun j => ?_, by rw [hpool, hdeferrals]; rfl, by rw [hpool, horder]; rfl⟩
      rw [hslot, hslots, joinedBy_decide, hqslot, hqslot, hqslot, if_pos rfl, if_neg hne, ← hgeneration, hu']
      by_cases hj : j = i
      · rw [if_pos hj, if_pos hj]
      · rw [if_neg hj, if_neg hj, if_neg hj]
        rfl
    · obtain ⟨horder, hslots, hdeferrals⟩ := returnTicket_of_wait hqticket huw' hstill
        (by rw [hsource, ← hsource, hqwaiting, hsource]; exact hno)
      refine ⟨by rw [hpool, horder]; rfl, fun j => ?_, fun src => ?_⟩
      · rw [hslot, hslots, hqslot, hqslot, if_pos rfl, hu']
        split <;> rfl
      · rw [State.deferralOf, hpool]
        exact (hdeferrals src).trans (by rw [hsource]; rfl)
end Sys2Proof.Machine
end

section
/-! SUPPORT. TIMEBASE_ADVANCE: what its events leave as it is, and the move of the timebase (R80, R105). -/

namespace Sys2Proof.Machine

/-! ## What an event of an advance leaves as it is -/

/-- An entry with its state left out of sight. -/
def Entry.unstated (e : Entry) : Entry := { e with state := .active }

/-- From s to t the timebase, the source table, the token and the queue stay, and of the ports nothing changes but the
states of the stack entries. -/
structure Marks (s t : State) : Prop where
  frame : t = { s with pool := t.pool, lines := t.lines, timers := t.timers, faults := t.faults, ports := t.ports }
  port (g : Port) : t.port g = { s.port g with stack := (t.port g).stack }
  stack (g : Port) : (t.port g).stack.map Entry.unstated = (s.port g).stack.map Entry.unstated

theorem Marks.refl (s : State) : Marks s s := ⟨rfl, fun _ => rfl, fun _ => rfl⟩

theorem Marks.trans {s t u : State} (h : Marks s t) (k : Marks t u) : Marks s u where
  frame := by rw [k.frame, h.frame]
  port g := by rw [k.port g, h.port g]
  stack g := (k.stack g).trans (h.stack g)

/-- A change that leaves the ports marks nothing. -/
theorem Marks.of_ports {s t : State} (hframe : t = { s with
      pool := t.pool, lines := t.lines, timers := t.timers, faults := t.faults, ports := t.ports })
    (hports : t.ports = s.ports) : Marks s t :=
  have hport (g : Port) : t.port g = s.port g := by rw [State.port, State.port, hports]
  ⟨hframe, fun g => by rw [hport], fun g => by rw [hport]⟩

theorem Marks.of_poolFaults {s t : State} (h : OnlyPoolFaults s t) : Marks s t :=
  .of_ports (by rw [h]) h.ports

/-- An entry marked LAPSED is the same entry but for its state. -/
theorem map_unstated_set {es : List Entry} {k : Nat} {e : Entry} (he : es[k]? = some e) :
    (es.set k { e with state := .lapsed }).map Entry.unstated = es.map Entry.unstated := by
  obtain ⟨hk, rfl⟩ := List.getElem?_eq_some_iff.1 he
  rw [List.map_set]
  refine (congrArg _ ?_).trans (List.set_getElem_self (by simpa using hk))
  rw [List.getElem_map]
  rfl

theorem lapseEntry_marks (s : State) (h : Port) (k : Fin 4) : Marks s (s.lapseEntry h k) := by
  cases he : s.entryAt h k with
  | none => rw [State.lapseEntry, he]; exact .refl s
  | some e =>
    refine ⟨by rw [lapseEntry_frame], fun g => ?_, fun g => ?_⟩ <;> rw [lapseEntry_port he] <;> split
    · next hg => rw [hg]
    · rfl
    · next hg => rw [hg]; exact map_unstated_set he
    · rfl

/-- An event of an advance marks entries, and leaves timebase, sources, token and queue (R80, R105). -/
theorem takeEvent_marks (pins : BitVec 32) (chainOrder : List TimerId) (s : State) (e : AdvanceEvent) :
    Marks s (s.takeEvent pins chainOrder e) := by
  unfold State.takeEvent
  split
  next =>
    cases e with
    | line n => exact .of_ports (by dsimp only; rw [sampleLine_frame]) (by dsimp only; rw [sampleLine_frame])
    | timer n => exact .of_ports (by dsimp only; rw [stepTimer_frame]) (by dsimp only; rw [stepTimer_frame])
    | service h k => exact lapseEntry_marks s h k
    | collection i => exact .of_poolFaults (collect_onlyPoolFaults s i)
    | affinity i => exact .of_poolFaults (endReservation_onlyPool s i).poolFaults
  next => exact .refl s

theorem advanceEvent_marks (pins : BitVec 32) (chainOrder : List TimerId) (held : List AdvanceEvent) (s : State)
    (e : AdvanceEvent) : Marks s (State.advanceEvent pins chainOrder held s e) := by
  unfold State.advanceEvent
  split
  · exact .refl s
  · exact takeEvent_marks pins chainOrder s e

/-- Before the timebase moves, the held expiries that are left are taken. -/
theorem takeHeld_marks (s : State) : Marks s s.takeHeld :=
  foldl_keeps (P := Marks s) (fun t e h => h.trans (takeEvent_marks 0 [] t e)) _ s (.refl s)

theorem advanced_marks (s : State) (pins : BitVec 32) (order held : List AdvanceEvent) :
    Marks s.takeHeld.moveTimebase (s.advanced pins order held) :=
  foldl_keeps (P := Marks s.takeHeld.moveTimebase) (fun t e h => h.trans (advanceEvent_marks pins _ held t e)) _ _
    (.refl _)

theorem Marks.fields {s t : State} (h : Marks s t) :
    t.timebase = s.timebase ∧ t.sources = s.sources ∧ t.faultLevel = s.faultLevel ∧ t.token = s.token
      ∧ t.pending = s.pending := by
  rw [h.frame]
  exact ⟨rfl, rfl, rfl, rfl, rfl⟩

theorem moveTimebase_fields (s : State) :
    s.moveTimebase.timebase = s.timebase + 1 ∧ s.moveTimebase.sources = s.sources
      ∧ s.moveTimebase.faultLevel = s.faultLevel ∧ s.moveTimebase.token = s.token
      ∧ s.moveTimebase.pending = s.pending := ⟨rfl, rfl, rfl, rfl, rfl⟩

/-- Through a whole advance the timebase moves by one, and sources, token and queue stay (R105). -/
theorem advanced_fields (s : State) (pins : BitVec 32) (order held : List AdvanceEvent) :
    (s.advanced pins order held).timebase = s.timebase + 1 ∧ (s.advanced pins order held).sources = s.sources
      ∧ (s.advanced pins order held).faultLevel = s.faultLevel ∧ (s.advanced pins order held).token = s.token
      ∧ (s.advanced pins order held).pending = s.pending := by
  obtain ⟨h1, h2, h3, h4, h5⟩ := (takeHeld_marks s).fields
  obtain ⟨m1, m2, m3, m4, m5⟩ := moveTimebase_fields s.takeHeld
  obtain ⟨a1, a2, a3, a4, a5⟩ := (advanced_marks s pins order held).fields
  exact ⟨by rw [a1, m1, h1], by rw [a2, m2, h2], by rw [a3, m3, h3], by rw [a4, m4, h4], by rw [a5, m5, h5]⟩

/-- Settles O45: the events mark entries alone, before the move and after it. -/
theorem advanceMovesTimebase : Obligations.AdvanceMovesTimebase := by
  intro pins order held s
  obtain ⟨htime, hsources, hlevel, htoken, hpending⟩ := advanced_fields s pins order held
  have hheld := takeHeld_marks s
  have hafter := advanced_marks s pins order held
  refine ⟨(s.advanced pins order held).recompute, rfl, ?_, hsources, hlevel, htoken, hpending, fun g => ⟨?_, ?_⟩⟩
  · rw [recompute_timebase, htime, BitVec.toNat_add]
    rfl
  · rw [recompute_port, recompute_offer, hafter.port g, moveTimebase_port, hheld.port g]
    rfl
  · rw [recompute_port]
    have hmove : (s.takeHeld.moveTimebase.port g).stack = (s.takeHeld.port g).stack := by rw [moveTimebase_port]
    exact ((hafter.stack g).trans (congrArg (List.map Entry.unstated) hmove)).trans (hheld.stack g)

end Sys2Proof.Machine
end

section
/-! SUPPORT. What is due at an instant: no event makes another of the same instant due, and an event that is taken is due
no more (R79, R106). -/

namespace Sys2Proof.Machine

/-! ## The expiries of the pool -/

/-- Ticket v has no expiry at an instant. -/
def Ticket.EndsLater (v : Ticket) (now : Time) : Prop :=
  (∀ o c, v.standing ≠ .spread o c (some now)) ∧ ∀ r, v.reservation = some r → r.expiry ≠ now

/-- Ticket v has no expiry at an instant but those that u has. -/
def Ticket.EndsWithin (v u : Ticket) (now : Time) : Prop :=
  (∀ o c, v.standing = .spread o c (some now) → ∃ o' c', u.standing = .spread o' c' (some now))
    ∧ ∀ r, v.reservation = some r → r.expiry = now → ∃ r', u.reservation = some r' ∧ r'.expiry = now

/-- A ticket that is not in a round and has the reservation of another, or none, has no further expiry. -/
theorem Ticket.EndsWithin.of_reservation {v u : Ticket} {now : Time} (hs : v.inRound = false)
    (hr : ∀ r, v.reservation = some r → u.reservation = some r) : v.EndsWithin u now :=
  ⟨fun o c hround => by simp [Ticket.inRound, hround] at hs, fun r h hnow => ⟨r, hr r h, hnow⟩⟩

/-- From s to t no expiry of the present instant comes up in the pool. -/
structure Fades (s t : State) : Prop where
  timebase : t.timebase = s.timebase
  ticket (i : SlotId) (v : Ticket) : t.ticketAt i = some v →
    v.EndsLater s.timebase ∨ ∃ u, s.ticketAt i = some u ∧ v.EndsWithin u s.timebase

theorem Ticket.EndsWithin.refl (u : Ticket) (now : Time) : u.EndsWithin u now :=
  ⟨fun o c h => ⟨o, c, h⟩, fun r h hnow => ⟨r, h, hnow⟩⟩

theorem Ticket.EndsWithin.trans {w v u : Ticket} {now : Time} (h : w.EndsWithin v now) (k : v.EndsWithin u now) :
    w.EndsWithin u now :=
  ⟨fun o c hw => by obtain ⟨o', c', hv⟩ := h.1 o c hw; exact k.1 o' c' hv,
    fun r hw hnow => by obtain ⟨r', hv, hnow'⟩ := h.2 r hw hnow; exact k.2 r' hv hnow'⟩

theorem Ticket.EndsLater.within {v u : Ticket} {now : Time} (h : u.EndsLater now) (k : v.EndsWithin u now) :
    v.EndsLater now :=
  ⟨fun o c hv => by obtain ⟨o', c', hu⟩ := k.1 o c hv; exact h.1 o' c' hu,
    fun r hv hnow => by obtain ⟨r', hu, hnow'⟩ := k.2 r hv hnow; exact h.2 r' hu hnow'⟩

theorem Fades.of_ticketAt {s t : State} (htime : t.timebase = s.timebase) (h : ∀ i, t.ticketAt i = s.ticketAt i) :
    Fades s t := ⟨htime, fun i v hv => .inr ⟨v, h i ▸ hv, .refl v _⟩⟩

theorem Fades.refl (s : State) : Fades s s := .of_ticketAt rfl fun _ => rfl

theorem Fades.of_pool {s t : State} (htime : t.timebase = s.timebase) (h : t.pool = s.pool) : Fades s t :=
  .of_ticketAt htime fun i => by rw [State.ticketAt, State.slotAt, h]; rfl

theorem Fades.trans {s t u : State} (h : Fades s t) (k : Fades t u) : Fades s u where
  timebase := k.timebase.trans h.timebase
  ticket i w hw := by
    have hk := k.ticket i w hw
    rw [h.timebase] at hk
    rcases hk with hlater | ⟨v, hv, hwithin⟩
    · exact .inl hlater
    · rcases h.ticket i v hv with hlater | ⟨u, hu, hwithin'⟩
      · exact .inl (hlater.within hwithin)
      · exact .inr ⟨u, hu, hwithin.trans hwithin'⟩

section
variable {s t : State} (h : Fades s t)
include h

theorem Fades.collection {i : SlotId} (hd : t.isDue (.collection i) = true) : s.isDue (.collection i) = true := by
  obtain ⟨v, o, c, hv, hround⟩ := isDue_collection_iff.1 hd
  rw [h.timebase] at hround
  rcases h.ticket i v hv with hlater | ⟨u, hu, hwithin⟩
  · exact absurd hround (hlater.1 o c)
  · obtain ⟨o', c', hu'⟩ := hwithin.1 o c hround
    exact isDue_collection_iff.2 ⟨u, o', c', hu, hu'⟩

theorem Fades.affinity {i : SlotId} (hd : t.isDue (.affinity i) = true) : s.isDue (.affinity i) = true := by
  obtain ⟨v, r, hv, hr, hnow⟩ := isDue_affinity_iff.1 hd
  rw [h.timebase] at hnow
  rcases h.ticket i v hv with hlater | ⟨u, hu, hwithin⟩
  · exact absurd hnow (hlater.2 r hr)
  · obtain ⟨r', hr', hnow'⟩ := hwithin.2 r hr hnow
    exact isDue_affinity_iff.2 ⟨u, r', hu, hr', hnow'⟩

end

/-! ## The operations of the pool -/

theorem setTicket_fades {s : State} {i : SlotId} {u v : Ticket} (hu : s.ticketAt i = some u)
    (hv : v.EndsWithin u s.timebase) : Fades s (s.setTicket i v) where
  timebase := rfl
  ticket j w hw := by
    rw [State.setTicket_ticketAt] at hw
    split at hw
    next hj =>
      cases hw
      exact .inr ⟨u, hj ▸ hu, hv⟩
    next => exact .inr ⟨w, hw, .refl w _⟩

theorem setDeferral_fades (s : State) (src : SourceId) (d : Option Deferral) : Fades s (s.setDeferral src d) :=
  .of_ticketAt rfl fun _ => rfl

/-- A new ticket is WAITING, and its reservation ends after now: less than the window has passed since its stamp
(R46). -/
theorem newTicket_endsLater (s : State) (src : SourceId) (c : Nat) (st : Time) (p : Option (BitVec 16)) :
    (s.newTicket src c st p).EndsLater s.timebase := by
  refine ⟨nofun, fun r hr => ?_⟩
  rw [State.newTicket] at hr
  dsimp only at hr
  rw [reservationFor_eq] at hr
  split at hr
  next =>
    obtain ⟨g, -, hg⟩ := Option.bind_eq_some_iff.1 hr
    split at hg
    next hwindow =>
      obtain rfl := Option.some.inj hg
      intro hnow
      have hlt := hwindow.2
      rw [← hnow] at hlt
      dsimp only at hlt
      have hpast : (st + (s.config src).window.setWidth 48 - st).toNat = (s.config src).window.toNat := by
        rw [add_sub_cancel_left, BitVec.toNat_setWidth]
        have := (s.config src).window.isLt
        omega
      omega
    next => cases hg
  next => cases hr

theorem createTicket_fades (s : State) (i : SlotId) (src : SourceId) (c : Nat) (st : Time) (p : Option (BitVec 16)) :
    Fades s (s.createTicket i src c st p) where
  timebase := rfl
  ticket j w hw := by
    rw [State.ticketAt, createTicket_slotAt] at hw
    split at hw
    next => cases hw; exact .inl (newTicket_endsLater s src c st p)
    next => exact .inr ⟨w, hw, .refl w _⟩

theorem clearSlot_fades (s : State) (i : SlotId) : Fades s (s.clearSlot i) where
  timebase := rfl
  ticket j w hw := by
    rw [State.ticketAt, clearSlot_slotAt] at hw
    split at hw
    next => cases hw
    next => exact .inr ⟨w, hw, .refl w _⟩

theorem freeTicket_fades (s : State) (i : SlotId) : Fades s (s.freeTicket i) := by
  rcases freeTicket_cases s i with ⟨-, heq⟩ | ⟨-, -, heq⟩ | ⟨src, d, -, -, -, heq⟩ <;> rw [heq]
  · exact .refl s
  · exact clearSlot_fades s i
  · exact ((clearSlot_fades s i).trans (createTicket_fades _ i src _ _ none)).trans (setDeferral_fades _ src none)

theorem coalesce_fades (s : State) (i : SlotId) : Fades s (s.coalesce i) := by
  unfold State.coalesce
  cases hu : s.ticketAt i with
  | none => exact .refl s
  | some u => exact setTicket_fades hu (.refl u _)

theorem occurrence_fades (s : State) (src : SourceId) (p : BitVec 16) : Fades s (s.occurrence src p) := by
  unfold State.occurrence
  split
  · exact .refl s
  · split
    · exact createTicket_fades s _ src 1 _ _
    · exact .refl s
  · exact coalesce_fades s _
  · exact setDeferral_fades s src _
  · exact createTicket_fades s _ src 1 _ _
  · exact setDeferral_fades s src _

theorem withdraw_fades (s : State) (src : SourceId) : Fades s (s.withdraw src) := by
  unfold State.withdraw
  cases s.waitingTicket src with
  | none => exact setDeferral_fades s src none
  | some i => exact (freeTicket_fades s i).trans (setDeferral_fades _ src none)

theorem rearm_fades (s : State) (src : SourceId) : Fades s (s.rearm src) := by
  unfold State.rearm
  split
  · exact occurrence_fades s src 0
  · exact .refl s

theorem settle_fades (s : State) (i : SlotId) (src : SourceId) : Fades s (s.settle i src) :=
  (freeTicket_fades s i).trans (rearm_fades _ src)

theorem leaveRound_fades (s : State) (h : Port) (i : SlotId) : Fades s (s.leaveRound h i) := by
  rcases leaveRound_cases s h i with ⟨-, heq⟩ | ⟨u, o, c, x, hu, hround, ⟨-, heq⟩ | ⟨-, heq⟩⟩ <;> rw [heq]
  · exact .refl s
  · exact settle_fades s i u.source
  · refine setTicket_fades hu ⟨fun o' c' hnow => ⟨o, c, ?_⟩, fun r hr hnow => ⟨r, hr, hnow⟩⟩
    obtain ⟨-, -, rfl⟩ := Standing.spread.inj hnow
    exact hround

theorem mergeInto_fades (s : State) (r w : SlotId) : Fades s (s.mergeInto r w) := by
  unfold State.mergeInto
  split
  next u v hu hv =>
    have hmerged : (mergedTicket u v (s.olderThan r w)).EndsWithin v s.timebase :=
      ⟨fun o c h => ⟨o, c, h⟩, fun x h hnow => ⟨x, h, hnow⟩⟩
    have horder (t : State) (l : List SlotId) : Fades t (t.setOrder l) := .of_ticketAt rfl fun _ => rfl
    exact ((setTicket_fades hv hmerged).trans (horder _ _)).trans (freeTicket_fades _ r)
  next => exact .refl s

theorem returnTicket_fades (s : State) (i : SlotId) : Fades s (s.returnTicket i) := by
  cases hu : s.ticketAt i with
  | none =>
    have hnone : s.returnTicket i = s := by rw [State.returnTicket, hu]
    rw [hnone]
    exact .refl s
  | some u =>
    have hwaits (n : Nat) : ({ u with standing := .waiting, count := n } : Ticket).EndsWithin u s.timebase :=
      .of_reservation rfl fun _ h => h
    rcases returnTicket_cases hu with ⟨-, heq⟩ | ⟨-, ⟨w, -, heq⟩ | ⟨-, ⟨d, -, heq⟩ | ⟨-, heq⟩⟩⟩ <;> rw [heq]
    · exact freeTicket_fades s i
    · exact mergeInto_fades s i w
    · exact (setTicket_fades hu (hwaits _)).trans (setDeferral_fades _ u.source none)
    · exact setTicket_fades hu (hwaits u.count)

theorem appendFault_fades (s : State) (r : FaultRecord) : Fades s (s.appendFault r) := by
  rw [appendFault_eq]
  exact (Fades.of_pool (s := s) (t := { s with faults := s.faults.appended r }) rfl rfl).trans (occurrence_fades _ faultSource 0)

theorem lapseTicket_fades (s : State) (h : Port) (hd : Handle) : Fades s (s.lapseTicket h hd) := by
  rcases lapseTicket_cases s h hd with ⟨-, heq⟩ | ⟨u, g, hu, -, heq⟩ | ⟨u, o, c, x, -, -, heq⟩ <;> rw [heq]
  · exact .refl s
  · unfold State.lapseSingle
    split
    · exact (freeTicket_fades s _).trans (appendFault_fades _ _)
    · refine (setTicket_fades (ticketAt_of_named hu).1 ?_).trans (returnTicket_fades _ _)
      exact ⟨fun o c h => ⟨o, c, h⟩, fun r h hnow => ⟨r, h, hnow⟩⟩
  · exact (leaveRound_fades s h _).trans (appendFault_fades _ _)

theorem collect_fades (s : State) (i : SlotId) : Fades s (s.collect i) := by
  unfold State.collect
  split
  next => exact .refl s
  next u hu =>
    split
    next o c x hround =>
      refine foldl_keeps (P := Fades s) (fun t p h => h.trans (appendFault_fades t _)) _ _ ?_
      split
      · exact settle_fades s i u.source
      · exact setTicket_fades hu ⟨nofun, fun r h hnow => ⟨r, h, hnow⟩⟩
    next => exact .refl s

theorem endReservation_fades (s : State) (i : SlotId) : Fades s (s.endReservation i) := by
  unfold State.endReservation
  cases hu : s.ticketAt i with
  | none => exact .refl s
  | some u => exact setTicket_fades hu ⟨fun o c h => ⟨o, c, h⟩, nofun⟩

theorem recognisedChange_fades (s : State) (n : LineId) (level : Bool) : Fades s (s.recognisedChange n level) := by
  unfold State.recognisedChange
  dsimp only
  split
  case h_2 | h_3 => exact .refl s
  case h_7 | h_8 => exact withdraw_fades s _
  all_goals exact occurrence_fades s _ 0

theorem sampleLine_fades (s : State) (n : LineId) (level : Bool) : Fades s (s.sampleLine n level) := by
  have hline (l : Line) : Fades s (s.setLine n l) := .of_pool rfl rfl
  unfold State.sampleLine
  dsimp only
  split_ifs
  · exact hline _
  · exact hline _
  · exact (hline _).trans (recognisedChange_fades _ n level)
  · exact hline _

theorem stepTimer_fades (s : State) (n : TimerId) (chainOrder : List TimerId) :
    Fades s (s.stepTimer n chainOrder) := by
  unfold State.stepTimer
  split
  · refine foldl_keeps (P := Fades s) (fun t m h => h.trans (occurrence_fades t _ 0)) _ _ ?_
    exact .of_pool rfl rfl
  · exact .of_pool rfl rfl

theorem lapseEntry_fades (s : State) (h : Port) (k : Fin 4) : Fades s (s.lapseEntry h k) := by
  cases he : s.entryAt h k with
  | none => rw [State.lapseEntry, he]; exact .refl s
  | some e =>
    rw [lapseEntry_of_entry he]
    exact (Fades.of_pool (s := s) (t := s.setStack h _) rfl rfl).trans (lapseTicket_fades _ h e.handle)

/-- No event of an advance makes an expiry of the pool come up at its own instant. -/
theorem takeEvent_fades (pins : BitVec 32) (chainOrder : List TimerId) (s : State) (e : AdvanceEvent) :
    Fades s (s.takeEvent pins chainOrder e) := by
  unfold State.takeEvent
  split
  next =>
    cases e with
    | line n => exact sampleLine_fades s n _
    | timer n => exact stepTimer_fades s n chainOrder
    | service h k => exact lapseEntry_fades s h k
    | collection i => exact collect_fades s i
    | affinity i => exact endReservation_fades s i
  next => exact .refl s

/-! ## The events of an advance -/

/-- The record of a line that has been sampled at a level, with the filter of its source (R4). -/
def Line.after (l : Line) (filter : Nat) (level : Bool) : Line :=
  if l.sampled = false then { recognised := level, run := 0, sampled := true, sampleDue := false }
  else if level = l.recognised then { l with run := 0, sampleDue := false }
  else if filter < l.run + 1 then { l with recognised := level, run := 0, sampleDue := false }
  else { l with run := l.run + 1, sampleDue := false }

/-- The lines after a sample (R4). -/
theorem sampleLine_lines (s : State) (n : LineId) (level : Bool) :
    (s.sampleLine n level).lines =
      place s.lines n ((s.line n).after (s.config (lineSource n)).filter.val level) := by
  unfold State.sampleLine Line.after
  dsimp only
  split_ifs
  · rfl
  · rfl
  · exact (recognisedChange_onlyPool _ n level).lines
  · rfl

theorem sampleLine_line (s : State) (n m : LineId) (level : Bool) :
    (s.sampleLine n level).line m =
      if m = n then (s.line n).after (s.config (lineSource n)).filter.val level else s.line m := by
  rw [State.line, sampleLine_lines, look_place]
  rfl

/-- An event that is no sample leaves the lines. -/
theorem takeEvent_lines {pins : BitVec 32} {chainOrder : List TimerId} {s : State} {e : AdvanceEvent}
    (he : ∀ n, e ≠ .line n) : (s.takeEvent pins chainOrder e).lines = s.lines := by
  unfold State.takeEvent
  split
  next =>
    cases e with
    | line n => exact absurd rfl (he n)
    | timer n => dsimp only; rw [stepTimer_frame]
    | service h k => dsimp only; rw [lapseEntry_frame]
    | collection i => exact (collect_onlyPoolFaults s i).lines
    | affinity i => exact (endReservation_onlyPool s i).lines
  next => rfl

/-- A step, with all that follows it, leaves no timer due that was not. -/
theorem stepBank_due (depth : Nat) (n m : TimerId) (ts : Vector Timer 8)
    (hd : ((look (stepBank depth n ts).1 m).running && (look (stepBank depth n ts).1 m).stepDue) = true) :
    ((look ts m).running && (look ts m).stepDue) = true := by
  have hplace (xs : Vector Timer 8) (k : TimerId) (x : Timer)
      (hx : (x.running && x.stepDue) = true → ((look xs k).running && (look xs k).stepDue) = true)
      (h : ((look (place xs k x) m).running && (look (place xs k x) m).stepDue) = true) :
      ((look xs m).running && (look xs m).stepDue) = true := by
    rw [look_place] at h
    split at h
    next hm => exact hm ▸ hx h
    next => exact h
  refine stepBank_keeps (Q := fun xs => ((look xs m).running && (look xs m).stepDue) = true →
    ((look ts m).running && (look ts m).stepDue) = true) (fun xs k hxs h => hxs (hplace xs k _ ?_ h))
    (fun xs k hxs h => hxs (hplace xs k _ ?_ h)) depth n ts id hd
  · simp [Timer.counted]
  · unfold Timer.afterExpiry
    split <;> simp

/-- An event that is no step leaves the timers. -/
theorem takeEvent_timers {pins : BitVec 32} {chainOrder : List TimerId} {s : State} {e : AdvanceEvent}
    (he : ∀ n, e ≠ .timer n) : (s.takeEvent pins chainOrder e).timers = s.timers := by
  unfold State.takeEvent
  split
  next =>
    cases e with
    | line n => dsimp only; rw [sampleLine_frame]
    | timer n => exact absurd rfl (he n)
    | service h k => dsimp only; rw [lapseEntry_frame]
    | collection i => exact (collect_onlyPoolFaults s i).timers
    | affinity i => exact (endReservation_onlyPool s i).timers
  next => rfl

theorem takeEvent_of_due {pins : BitVec 32} {chainOrder : List TimerId} {s : State} {e : AdvanceEvent}
    (h : s.isDue e = false) : s.takeEvent pins chainOrder e = s := by
  unfold State.takeEvent
  rw [if_neg (by simp [h])]

/-- The sample of a line, as an event. -/
theorem takeEvent_line {pins : BitVec 32} {chainOrder : List TimerId} {s : State} {n : LineId}
    (h : (s.line n).sampleDue = true) : s.takeEvent pins chainOrder (.line n) = s.sampleLine n (pins.getLsbD n.val) :=
  if_pos h

theorem takeEvent_timer {pins : BitVec 32} {chainOrder : List TimerId} {s : State} {n : TimerId}
    (h : s.isDue (.timer n) = true) : s.takeEvent pins chainOrder (.timer n) = s.stepTimer n chainOrder := if_pos h

theorem Line.after_sampleDue (l : Line) (filter : Nat) (level : Bool) : (l.after filter level).sampleDue = false := by
  unfold Line.after
  split_ifs <;> rfl

theorem stepTimer_due {s : State} {n m : TimerId} {chainOrder : List TimerId}
    (hd : (s.stepTimer n chainOrder).isDue (.timer m) = true) : s.isDue (.timer m) = true := by
  unfold State.isDue State.timer at hd ⊢
  dsimp only at hd ⊢
  rw [stepTimer_timers] at hd
  split at hd
  next => exact stepBank_due 8 n m s.timers hd
  next =>
    rw [look_place] at hd
    split at hd
    next => simp at hd
    next => exact hd

/-- An entry that is ACTIVE after the lapse of an entry was so before. -/
theorem lapseEntry_due {s : State} {h g : Port} {k j : Fin 4}
    (hd : (s.lapseEntry h k).isDue (.service g j) = true) : s.isDue (.service g j) = true := by
  cases he : s.entryAt h k with
  | none => rwa [State.lapseEntry, he] at hd
  | some e =>
    obtain ⟨x, hx, hactive, hnow⟩ := isDue_service_iff.1 hd
    rw [lapseEntry_frame] at hnow
    rw [lapseEntry_port he] at hx
    split at hx
    next hg =>
      dsimp only at hx
      rw [List.getElem?_set] at hx
      split at hx
      next =>
        split at hx
        next => obtain rfl := Option.some.inj hx; cases hactive
        next => cases hx
      next => exact isDue_service_iff.2 ⟨x, hg ▸ hx, hactive, hnow⟩
    next => exact isDue_service_iff.2 ⟨x, hx, hactive, hnow⟩

/-- No event makes another event of its instant due (R106). -/
theorem takeEvent_due {pins : BitVec 32} {chainOrder : List TimerId} {s : State} {e x : AdvanceEvent}
    (hd : (s.takeEvent pins chainOrder e).isDue x = true) : s.isDue x = true := by
  by_cases hdue : s.isDue e = true
  swap
  · rwa [takeEvent_of_due (by simpa using hdue)] at hd
  cases x with
  | line n =>
    by_cases he : ∃ m, e = .line m
    · obtain ⟨m, rfl⟩ := he
      rw [takeEvent_line hdue] at hd
      unfold State.isDue at hd
      dsimp only at hd
      rw [sampleLine_line] at hd
      split at hd
      next hn => exact hn ▸ hdue
      next => exact hd
    · unfold State.isDue State.line at hd
      dsimp only at hd
      rwa [takeEvent_lines fun m hm => he ⟨m, hm⟩] at hd
  | timer n =>
    by_cases he : ∃ m, e = .timer m
    · obtain ⟨m, rfl⟩ := he
      rw [takeEvent_timer hdue] at hd
      exact stepTimer_due hd
    · unfold State.isDue State.timer at hd
      dsimp only at hd
      rwa [takeEvent_timers fun m hm => he ⟨m, hm⟩] at hd
  | service g j =>
    by_cases he : ∃ h k, e = .service h k
    · obtain ⟨h, k, rfl⟩ := he
      rw [State.takeEvent, if_pos hdue] at hd
      exact lapseEntry_due hd
    · obtain ⟨y, hy, hactive, hnow⟩ := isDue_service_iff.1 hd
      have hports : (s.takeEvent pins chainOrder e).ports = s.ports := by
        unfold State.takeEvent
        rw [if_pos hdue]
        cases e with
        | line n => dsimp only; rw [sampleLine_frame]
        | timer n => dsimp only; rw [stepTimer_frame]
        | service h k => exact absurd ⟨h, k, rfl⟩ he
        | collection i => exact (collect_onlyPoolFaults s i).ports
        | affinity i => exact (endReservation_onlyPool s i).ports
      rw [State.port, hports] at hy
      rw [(takeEvent_marks pins chainOrder s e).fields.1] at hnow
      exact isDue_service_iff.2 ⟨y, hy, hactive, hnow⟩
  | collection i => exact (takeEvent_fades pins chainOrder s e).collection hd
  | affinity i => exact (takeEvent_fades pins chainOrder s e).affinity hd

/-- A timer that has stepped has no step left over: its own step is taken first, and no later one of the chain brings
another (R109). -/
theorem stepBank_taken (depth : Nat) (n : TimerId) (ts : Vector Timer 8) :
    (look (stepBank (depth + 1) n ts).1 n).stepDue = false := by
  have hcounted : (look (place ts n (look ts n).counted) n).stepDue = false := by rw [look_place_same]; rfl
  by_cases hc : (look ts n).counted.count = 0
  · have hexpired (t : Timer) : t.afterExpiry.stepDue = t.stepDue := by
      unfold Timer.afterExpiry
      split <;> rfl
    have hstep (m : TimerId) (xs : Vector Timer 8) (hxs : (look xs n).stepDue = false) :
        (look (stepBank depth m xs).1 n).stepDue = false := by
      refine stepBank_keeps (Q := fun xs => (look xs n).stepDue = false) (fun xs k h => ?_) (fun xs k h => ?_) depth m
        xs hxs
      · rw [look_place]
        split
        · rfl
        · exact h
      · rw [look_place]
        split
        next hn => rw [hexpired, ← hn]; exact h
        next => exact h
    have hall (l : List TimerId) (acc : Vector Timer 8 × List TimerId) (h : (look acc.1 n).stepDue = false) :
        (look (stepAll depth l acc).1 n).stepDue = false := by
      induction l generalizing acc with
      | nil => exact h
      | cons m l ih => exact ih _ (hstep m acc.1 h)
    rw [stepBank_of_last hc, look_place_same, hexpired]
    exact hall _ _ hcounted
  · rw [stepBank_of_more hc]
    exact hcounted

theorem stepTimer_taken (s : State) (n : TimerId) (chainOrder : List TimerId) :
    ((s.stepTimer n chainOrder).timer n).stepDue = false := by
  rw [State.timer, stepTimer_timers]
  split
  · exact stepBank_taken 7 n s.timers
  · rw [look_place_same]

/-- A freed slot holds no round: it is FREE, or a new ticket stands in it (R31). -/
theorem freeTicket_taken (s : State) (i : SlotId) : (s.freeTicket i).isDue (.collection i) = false := by
  rw [← Bool.not_eq_true, isDue_collection_iff]
  rintro ⟨v, o, c, hv, hround⟩
  rcases freeTicket_cases s i with ⟨hu, heq⟩ | ⟨-, -, heq⟩ | ⟨src, d, -, -, -, heq⟩ <;> rw [heq] at hv hround
  · rw [hu] at hv
    cases hv
  · rw [State.ticketAt, clearSlot_slotAt, if_pos rfl] at hv
    cases hv
  · rw [State.ticketAt, State.setDeferral_slotAt, createTicket_slotAt, if_pos rfl] at hv
    obtain rfl := Option.some.inj hv
    exact (newTicket_endsLater (s.clearSlot i) src d.count d.stamp none).1 o c hround

/-- The round that has been collected has no collection expiry any more (R87). -/
theorem collect_taken {s : State} {i : SlotId} {u : Ticket} {o c : HostSet} {x : Option Time}
    (hu : s.ticketAt i = some u) (hround : u.standing = .spread o c x) :
    (s.collect i).isDue (.collection i) = false := by
  have hmembers (t : State) (ht : t.isDue (.collection i) = false) :
      ((HostSet.members (o &&& ~~~ c)).foldl
        (fun st h => st.appendFault (.shareLapsed u.source (s.handleOf i) h s.timebase)) t).isDue (.collection i)
          = false := by
    refine foldl_keeps (P := fun y => y.isDue (.collection i) = false) (fun y p hy => ?_) _ t ht
    rw [← Bool.not_eq_true] at hy ⊢
    exact fun hd => hy ((appendFault_fades y _).collection hd)
  unfold State.collect
  rw [hu]
  dsimp only
  rw [hround]
  refine hmembers _ ?_
  split
  · rw [← Bool.not_eq_true]
    intro hd
    have hfreed := (rearm_fades (s.freeTicket i) u.source).collection hd
    rw [freeTicket_taken] at hfreed
    cases hfreed
  · rw [← Bool.not_eq_true, isDue_collection_iff]
    rintro ⟨v, o', c', hv, hspread⟩
    rw [State.setTicket_ticketAt, if_pos rfl] at hv
    obtain rfl := Option.some.inj hv
    cases hspread

/-- An event that has been taken is due no more (R106). -/
theorem takeEvent_taken (pins : BitVec 32) (chainOrder : List TimerId) (s : State) (e : AdvanceEvent) :
    (s.takeEvent pins chainOrder e).isDue e = false := by
  cases hdue : s.isDue e with
  | false => rwa [takeEvent_of_due hdue]
  | true =>
    cases e with
    | line n =>
      rw [takeEvent_line hdue]
      unfold State.isDue
      dsimp only
      rw [sampleLine_line, if_pos rfl, Line.after_sampleDue]
    | timer n =>
      rw [takeEvent_timer hdue]
      unfold State.isDue
      dsimp only
      rw [stepTimer_taken, Bool.and_false]
    | service h k =>
      rw [State.takeEvent, if_pos hdue, ← Bool.not_eq_true, isDue_service_iff]
      rintro ⟨y, hy, hactive, -⟩
      obtain ⟨e, he, -⟩ := active_of_isDue hdue
      rw [lapseEntry_port he, if_pos rfl] at hy
      rw [List.getElem?_set_self (List.getElem?_eq_some_iff.1 he).1] at hy
      obtain rfl := Option.some.inj hy
      cases hactive
    | collection i =>
      obtain ⟨u, o, c, hu, hround⟩ := isDue_collection_iff.1 hdue
      rw [State.takeEvent, if_pos hdue]
      exact collect_taken hu hround
    | affinity i =>
      obtain ⟨u, r, hu, -⟩ := isDue_affinity_iff.1 hdue
      rw [State.takeEvent, if_pos hdue, State.endReservation, hu, ← Bool.not_eq_true, isDue_affinity_iff]
      rintro ⟨v, r, hv, hr, -⟩
      rw [State.setTicket_ticketAt, if_pos rfl] at hv
      obtain rfl := Option.some.inj hv
      cases hr

end Sys2Proof.Machine
end

section
/-! SUPPORT. The sampling of the lines at an advance (R4 to R7). -/

namespace Sys2Proof.Machine

/-! ## One sample -/

/-- What a recognised change does to the pool, from any state that shows the pool the same (R5). -/
theorem recognisedChange_pool {s t : State} (h : SameView s t) (n : LineId) (level : Bool) :
    (t.recognisedChange n level).pool = (s.afterChange n level).pool := by
  unfold State.recognisedChange State.afterChange
  dsimp only
  rw [h.config]
  cases (s.config (lineSource n)).sense <;> cases level
  case rising.false | falling.true => exact h.pool
  case high.false | low.true => exact (h.withdraw _).pool
  all_goals exact (h.occurrence _ 0).pool

/-- The pool after a sample: a recognised change, or nothing (R4, R5). -/
theorem sampleLine_pool (s : State) (n : LineId) (level : Bool) :
    (s.sampleLine n level).pool = if s.Changes n level then (s.afterChange n level).pool else s.pool := by
  have hline (l : Line) : SameView s (s.setLine n l) := ⟨rfl, rfl, rfl, rfl, rfl, fun _ => rfl⟩
  unfold State.sampleLine
  dsimp only
  by_cases hchanges : s.Changes n level
  · obtain ⟨hsampled, hne, hfilter⟩ := id hchanges
    rw [if_pos hchanges, if_neg (by simp [hsampled]), if_neg hne, if_pos hfilter]
    exact recognisedChange_pool (hline _) n level
  · rw [if_neg hchanges]
    split
    · rfl
    next hsampled =>
      split
      · rfl
      next hne => exact (congrArg State.pool
        (if_neg fun hfilter => hchanges ⟨by simpa using hsampled, hne, hfilter⟩)).trans rfl

/-! ## The samples of an advance -/

theorem foldl_keeps_mem {P : State → Prop} {α : Type} {f : State → α → State} {l : List α}
    (hf : ∀ s, ∀ a ∈ l, P s → P (f s a)) (s : State) (hs : P s) : P (l.foldl f s) := by
  induction l generalizing s with
  | nil => exact hs
  | cons a l ih => exact ih (fun s b hb => hf s b (List.mem_cons_of_mem a hb)) _ (hf s a List.mem_cons_self hs)

/-- No sample is among the expiries. -/
theorem ne_line_of_expiry {e : AdvanceEvent} (he : e ∈ allExpiries) (n : LineId) : e ≠ .line n := by
  rintro rfl
  simp [allExpiries] at he

theorem takeHeld_lines (s : State) : s.takeHeld.lines = s.lines :=
  foldl_keeps_mem (P := fun t => t.lines = s.lines)
    (fun _ _ he ht => (takeEvent_lines (ne_line_of_expiry he)).trans ht) s rfl

/-- The move of the timebase makes a sample of each line due. -/
theorem moveTimebase_line (s : State) (n : LineId) : s.moveTimebase.line n = { s.line n with sampleDue := true } :=
  look_fill _ n

/-- The source table reads as it did where its fields stay. -/
theorem config_congr {s t : State} (hsources : t.sources = s.sources) (hlevel : t.faultLevel = s.faultLevel)
    (htoken : t.token = s.token) (src : SourceId) : t.config src = s.config src := by
  unfold State.config State.faultRecordOf State.tokenSet
  rw [hsources, hlevel, htoken]

theorem Marks.config {s t : State} (h : Marks s t) (src : SourceId) : t.config src = s.config src :=
  config_congr h.fields.2.1 h.fields.2.2.1 h.fields.2.2.2.1 src

theorem moveTimebase_config (s : State) (src : SourceId) : s.moveTimebase.config src = s.config src :=
  config_congr rfl rfl rfl src

/-- An event of an advance is taken if it is due and not held, and otherwise leaves the state. -/
theorem advanceEvent_cases (pins : BitVec 32) (chainOrder : List TimerId) (held : List AdvanceEvent) (s : State)
    (e : AdvanceEvent) :
    State.advanceEvent pins chainOrder held s e = s
      ∨ (s.isDue e = true ∧ s.isHeld held e = false
        ∧ State.advanceEvent pins chainOrder held s e = s.takeEvent pins chainOrder e) := by
  unfold State.advanceEvent
  split
  next => exact .inl rfl
  next hheld =>
    cases hdue : s.isDue e with
    | false => exact .inl (takeEvent_of_due hdue)
    | true => exact .inr ⟨rfl, by simpa using hheld, rfl⟩

/-- An advance that cannot hold an event leaves it taken, whatever else comes. -/
theorem advance_taken {pins : BitVec 32} {chainOrder : List TimerId} {held l : List AdvanceEvent} {e : AdvanceEvent}
    (hheld : ∀ t : State, t.isHeld held e = false) (he : e ∈ l) (s : State) :
    (l.foldl (State.advanceEvent pins chainOrder held) s).isDue e = false := by
  have hkeep (t : State) (x : AdvanceEvent) (ht : t.isDue e = false) :
      (State.advanceEvent pins chainOrder held t x).isDue e = false := by
    rcases advanceEvent_cases pins chainOrder held t x with heq | ⟨-, -, heq⟩ <;> rw [heq]
    · exact ht
    · rw [← Bool.not_eq_true] at ht ⊢
      exact fun hd => ht (takeEvent_due hd)
  induction l generalizing s with
  | nil => cases he
  | cons x l ih =>
    rcases List.mem_cons.1 he with rfl | htail
    · refine foldl_keeps hkeep l _ ?_
      rw [State.advanceEvent, if_neg (by simp [hheld])]
      exact takeEvent_taken pins chainOrder s e
    · exact ih htail _

theorem Line.after_due (l : Line) (b : Bool) (filter : Nat) (level : Bool) :
    ({ l with sampleDue := b } : Line).after filter level = l.after filter level := rfl

/-- In the course of an advance from s, each line awaits its sample or has taken it (R4). -/
def State.Sampling (s t : State) (pins : BitVec 32) : Prop := ∀ n : LineId,
  t.line n =
    if (t.line n).sampleDue = true then { s.line n with sampleDue := true }
    else (s.line n).after (s.config (lineSource n)).filter.val (pins.getLsbD n.val)

/-- An event takes the sample of its line, once. -/
theorem State.Sampling.takeEvent {s t : State} {pins : BitVec 32} (h : s.Sampling t pins)
    (hconfig : ∀ src, t.config src = s.config src) (chainOrder : List TimerId) (e : AdvanceEvent) :
    s.Sampling (t.takeEvent pins chainOrder e) pins := by
  intro n
  by_cases he : e = .line n ∧ t.isDue e = true
  · obtain ⟨rfl, hdue⟩ := he
    have hline : t.line n = { s.line n with sampleDue := true } := (h n).trans (if_pos hdue)
    rw [takeEvent_line hdue, sampleLine_line, if_pos rfl, hline, Line.after_due, hconfig,
      if_neg (by simp [Line.after_sampleDue])]
  · have hline : (t.takeEvent pins chainOrder e).line n = t.line n := by
      cases hdue : t.isDue e with
      | false => rw [takeEvent_of_due hdue]
      | true =>
        cases e with
        | line m => rw [takeEvent_line hdue, sampleLine_line, if_neg fun hm : n = m => he ⟨congrArg _ hm.symm, hdue⟩]
        | _ => rw [State.line, takeEvent_lines (by simp)]; rfl
    rw [hline]
    exact h n

/-- An event of an advance takes samples, and otherwise leaves the lines awaiting theirs. -/
theorem sampling_keeps {s t : State} {pins : BitVec 32}
    (h : Marks s.takeHeld.moveTimebase t ∧ s.Sampling t pins) (chainOrder : List TimerId) (held : List AdvanceEvent)
    (e : AdvanceEvent) :
    Marks s.takeHeld.moveTimebase (State.advanceEvent pins chainOrder held t e)
      ∧ s.Sampling (State.advanceEvent pins chainOrder held t e) pins := by
  obtain ⟨hm, hs⟩ := h
  have hconfig (src : SourceId) : t.config src = s.config src :=
    ((hm.config src).trans (moveTimebase_config s.takeHeld src)).trans ((takeHeld_marks s).config src)
  refine ⟨hm.trans (advanceEvent_marks pins _ held t e), ?_⟩
  rcases advanceEvent_cases pins chainOrder held t e with heq | ⟨-, -, heq⟩ <;> rw [heq]
  · exact hs
  · exact hs.takeEvent hconfig chainOrder e

theorem moved_sampling (s : State) (pins : BitVec 32) :
    Marks s.takeHeld.moveTimebase s.takeHeld.moveTimebase ∧ s.Sampling s.takeHeld.moveTimebase pins := by
  refine ⟨.refl _, fun m => ?_⟩
  have hline : s.takeHeld.line m = s.line m := by rw [State.line, takeHeld_lines]; rfl
  rw [moveTimebase_line, hline, if_pos rfl]

/-- The lines after an advance: each has been sampled once (R4). -/
theorem advanced_line (s : State) (pins : BitVec 32) (order held : List AdvanceEvent) (n : LineId) :
    (s.advanced pins order held).line n =
      (s.line n).after (s.config (lineSource n)).filter.val (pins.getLsbD n.val) := by
  have hsampling : Marks s.takeHeld.moveTimebase (s.advanced pins order held)
      ∧ s.Sampling (s.advanced pins order held) pins :=
    foldl_keeps (P := fun t => Marks s.takeHeld.moveTimebase t ∧ s.Sampling t pins)
      (fun _ e ht => sampling_keeps ht _ held e) _ _ (moved_sampling s pins)
  have htaken : (s.advanced pins order held).isDue (.line n) = false :=
    advance_taken (fun t => by simp [State.isHeld]) (by simp [allAdvanceEvents]) _
  exact (hsampling.2 n).trans (if_neg (by simpa [State.isDue] using htaken))

/-! ## An advance whose other events leave the pool alone -/

/-- Nothing due among the expiries of a quiet instant. -/
theorem nothingLeft_of_quiet {s : State} (hq : s.QuietAt s.timebase) : s.NothingLeft := by
  obtain ⟨htimers, hentries, htickets⟩ := hq
  intro x hx
  rw [← Bool.not_eq_true]
  intro hd
  cases x with
  | line n => cases hx
  | timer n => simp [State.isDue, htimers n] at hd
  | service h k =>
    obtain ⟨e, he, hactive, hnow⟩ := isDue_service_iff.1 hd
    exact hentries h e (List.mem_of_getElem? he) hactive hnow
  | collection i =>
    obtain ⟨u, o, c, hu, hround⟩ := isDue_collection_iff.1 hd
    refine (htickets i u hu).1 ?_
    rw [Ticket.owed, Ticket.claimed, hround]
  | affinity i =>
    obtain ⟨u, r, hu, hr, hnow⟩ := isDue_affinity_iff.1 hd
    exact (htickets i u hu).2 r hr hnow

/-- With nothing left over an advance begins with the move of the timebase. -/
theorem takeHeld_of_nothingLeft {s : State} (h : s.NothingLeft) : s.takeHeld = s :=
  foldl_keeps_mem (P := fun t => t = s) (fun t e he ht => by
    subst ht
    refine takeEvent_of_due (h e ?_)
    cases e with
    | line n => exact absurd rfl (ne_line_of_expiry he n)
    | _ => rfl) s rfl

/-- A quiet instant stays quiet as the timebase moves onto it. -/
theorem moveTimebase_nothingLeft {s : State} (hq : s.QuietAt (s.timebase + 1)) : s.moveTimebase.NothingLeft := by
  obtain ⟨htimers, hentries, htickets⟩ := hq
  refine nothingLeft_of_quiet ⟨fun n => ?_, fun h e he => ?_, fun i u hu => htickets i u hu⟩
  · rw [moveTimebase_timer]
    exact htimers n
  · rw [moveTimebase_port] at he
    exact hentries h e he

theorem nothingLeft_takeEvent {s : State} (h : s.NothingLeft) (pins : BitVec 32) (chainOrder : List TimerId)
    (e : AdvanceEvent) : (s.takeEvent pins chainOrder e).NothingLeft := by
  intro x hx
  have hnot := h x hx
  rw [← Bool.not_eq_true] at hnot ⊢
  exact fun hd => hnot (takeEvent_due hd)

/-- The state in which the samples of an advance are taken: s, one instant later. -/
def State.later (s : State) : State := { s with timebase := s.timebase + 1 }

/-- The operations of the pool see the course of an advance as s one instant later, while the pool is that of s. -/
theorem sameView_later {s t : State} (h : Marks s.moveTimebase t) (hpool : t.pool = s.pool) : SameView s.later t := by
  obtain ⟨htime, hsources, hlevel, htoken, -⟩ := h.fields
  refine ⟨htime, hsources, hlevel, htoken, hpool, fun g => ?_⟩
  rw [State.attached, h.port, moveTimebase_port]
  rfl

theorem afterChange_pool {s t : State} (h : SameView s t) (n : LineId) (level : Bool) :
    (t.afterChange n level).pool = (s.afterChange n level).pool :=
  (recognisedChange_pool (.refl t) n level).symm.trans (recognisedChange_pool h n level)

/-- In the course of an advance from s in which line n alone may change, the pool is that of s until the sample of line n
is taken, and then that after its change. -/
structure State.Sampled (s t : State) (pins : BitVec 32) (n : LineId) : Prop where
  marks : Marks s.moveTimebase t
  sampling : s.Sampling t pins
  quiet : t.NothingLeft
  before : (t.line n).sampleDue = true → t.pool = s.pool
  after : (t.line n).sampleDue = false → t.pool =
    if s.Changes n (pins.getLsbD n.val) then (s.later.afterChange n (pins.getLsbD n.val)).pool else s.pool

theorem State.Sampled.takeEvent {s t : State} {pins : BitVec 32} {n : LineId} (h : s.Sampled t pins n)
    (hothers : ∀ m : LineId, m ≠ n → ¬ s.Changes m (pins.getLsbD m.val)) (chainOrder : List TimerId)
    (e : AdvanceEvent) : s.Sampled (t.takeEvent pins chainOrder e) pins n := by
  have hconfig (src : SourceId) : t.config src = s.config src :=
    (h.marks.config src).trans (moveTimebase_config s src)
  cases hdue : t.isDue e with
  | false => rwa [takeEvent_of_due hdue]
  | true =>
    cases e with
    | line m =>
      have hline : t.line m = { s.line m with sampleDue := true } := (h.sampling m).trans (if_pos hdue)
      have hchanges : t.Changes m (pins.getLsbD m.val) ↔ s.Changes m (pins.getLsbD m.val) := by
        rw [State.Changes, hline, hconfig]
      have hafter := h.sampling.takeEvent hconfig chainOrder (.line m)
      have hquiet := nothingLeft_takeEvent h.quiet pins chainOrder (.line m)
      have hmarks := h.marks.trans (takeEvent_marks pins chainOrder t (.line m))
      have hpool := sampleLine_pool t m (pins.getLsbD m.val)
      have htaken := sampleLine_line t m n (pins.getLsbD m.val)
      rw [takeEvent_line hdue] at hafter hquiet hmarks ⊢
      by_cases hm : m = n
      · subst hm
        have hview : SameView s.later t := sameView_later h.marks (h.before hdue)
        rw [if_pos rfl] at htaken
        refine ⟨hmarks, hafter, hquiet, fun hd => ?_, fun _ => ?_⟩
        · rw [htaken, Line.after_sampleDue] at hd
          cases hd
        · rw [hpool, afterChange_pool hview, h.before hdue]
          exact if_congr hchanges rfl rfl
      · rw [if_neg (Ne.symm hm)] at htaken
        rw [if_neg fun hc => hothers m hm (hchanges.1 hc)] at hpool
        refine ⟨hmarks, hafter, hquiet, ?_, ?_⟩
        · rw [htaken, hpool]
          exact h.before
        · rw [htaken, hpool]
          exact h.after
    | _ => rw [h.quiet _ rfl] at hdue; cases hdue

/-- The pool after a quiet advance: that after the change of the one line that may change (R5). -/
theorem advanced_pool {s : State} {pins : BitVec 32} {n : LineId} (hnow : s.QuietAt s.timebase)
    (hnext : s.QuietAt (s.timebase + 1)) (hothers : ∀ m : LineId, m ≠ n → ¬ s.Changes m (pins.getLsbD m.val))
    (order held : List AdvanceEvent) :
    (s.advanced pins order held).pool =
      if s.Changes n (pins.getLsbD n.val) then (s.later.afterChange n (pins.getLsbD n.val)).pool else s.pool := by
  have hsampled : s.Sampled (s.advanced pins order held) pins n := by
    unfold State.advanced
    rw [takeHeld_of_nothingLeft (nothingLeft_of_quiet hnow)]
    refine foldl_keeps (P := fun t => s.Sampled t pins n) (fun t e ht => ?_) _ _
      ⟨.refl _, fun m => ?_, moveTimebase_nothingLeft hnext, fun _ => rfl, fun hd => ?_⟩
    · rcases advanceEvent_cases pins (chainOrderOf order) held t e with heq | ⟨-, -, heq⟩ <;> rw [heq]
      · exact ht
      · exact ht.takeEvent hothers _ e
    · rw [moveTimebase_line, if_pos rfl]
    · rw [moveTimebase_line] at hd
      cases hd
  exact hsampled.after (advance_taken (e := .line n) (fun t => by simp [State.isHeld]) (by simp [allAdvanceEvents]) _)

/-- Settles O46: one sample does to its line and to the pool what R4 and R5 say, and an advance takes each sample
once. -/
theorem advanceSamplesLines : Obligations.AdvanceSamplesLines := by
  refine ⟨fun src s => withdraw_withdraws s src, fun n high s => ⟨sampleLine_pool s n high, sampleLine_frame s n high⟩,
    fun pins order held s n hnow hnext hothers => ?_, fun pins order held s n => ?_⟩
  · exact ⟨(s.advanced pins order held).recompute, rfl, advanced_pool hnow hnext hothers order held⟩
  · refine ⟨(s.advanced pins order held).recompute, rfl, ?_⟩
    rw [State.line, recompute_lines]
    exact advanced_line s pins order held n

end Sys2Proof.Machine
end

section
/-! SUPPORT. The steps of the Timer Bank: which timers step and expire with a timer that is not itself chained, and what
becomes of each (R109 to R111). The chained timers below it form a tree, so that each steps once. -/

namespace Sys2Proof.Machine

/-! ## The tree of the chained steps -/

/-- A timer after one step: counted down, and at its last step reloaded or stopped (R109, R111). -/
def Timer.stepped (t : Timer) : Timer := if t.count = 1 then t.counted.afterExpiry else t.counted

/-- A chained timer counts down, or reloads (R110, R111). -/
theorem Timer.stepped_of_chained {t : Timer} (h : t.mode = .chained) :
    t.stepped = { t with count := if t.count = 1 then t.reload else t.count - 1, stepDue := false } := by
  cases t
  cases h
  unfold Timer.stepped
  split <;> rfl

/-- At its last step a timer that is not chained reloads if it is PERIODIC, and stops if it is ONESHOT (R111). -/
theorem Timer.stepped_of_last {t : Timer} (h : t.mode = .periodic ∨ t.mode = .oneshot) (hlast : t.count = 1) :
    t.stepped =
      if t.mode = .periodic then { t with count := t.reload, stepDue := false }
      else { t with count := 0, running := false, owner := none, stepDue := false } := by
  rw [Timer.stepped, if_pos hlast]
  cases t
  rcases h with h | h <;> cases h <;> rfl

theorem Timer.counted_count_eq_zero {t : Timer} : t.counted.count = 0 ↔ t.count = 1 := sub_eq_zero

/-- Timer m steps by a step of timer n, k links down the chain: it is timer n, or it runs chained to a timer that steps
so, and whose step is its last (R110). -/
def StepsUnder (ts : Vector Timer 8) (n : TimerId) : Nat → TimerId → Prop
  | 0, m => m = n
  | k + 1, m =>
    ((look ts m).running = true ∧ (look ts m).mode = .chained ∧ (look ts (look ts m).chain).count = 1)
      ∧ StepsUnder ts n k (look ts m).chain

section
variable {ts : Vector Timer 8} {n c c' m : TimerId} {k : Nat}

/-- The timers that take a chained step at an expiry of timer n (R110). -/
theorem mem_chainedTo {ts : Vector Timer 8} {n c : TimerId} :
    c ∈ chainedTo ts n ↔ (look ts c).running = true ∧ (look ts c).mode = .chained ∧ (look ts c).chain = n := by
  simp [chainedTo, and_assoc]

/-- A chain can be followed from one end alone: at k links from m there is one timer. -/
theorem StepsUnder.root_unique (h : StepsUnder ts c k m) (h' : StepsUnder ts c' k m) : c = c' := by
  induction k generalizing m with
  | zero => exact h.symm.trans h'
  | succ k ih => exact ih h.2 h'.2

/-- What steps under a timer chained to n steps under n, at n's last step. -/
theorem StepsUnder.of_child (hlast : (look ts n).count = 1) (hc : c ∈ chainedTo ts n) (h : StepsUnder ts c k m) :
    StepsUnder ts n (k + 1) m := by
  obtain ⟨hrun, hmode, hchain⟩ := mem_chainedTo.1 hc
  induction k generalizing m with
  | zero =>
    obtain rfl : m = c := h
    exact ⟨⟨hrun, hmode, by rw [hchain, hlast]⟩, hchain⟩
  | succ k ih => exact ⟨h.1, ih h.2⟩

/-- What steps under n but n itself steps under a timer chained to n, at n's last step. -/
theorem StepsUnder.to_child (h : StepsUnder ts n (k + 1) m) :
    (look ts n).count = 1 ∧ ∃ c ∈ chainedTo ts n, StepsUnder ts c k m := by
  induction k generalizing m with
  | zero =>
    obtain ⟨⟨hrun, hmode, hlast⟩, hchain⟩ := h
    have hchain : (look ts m).chain = n := hchain
    exact ⟨hchain ▸ hlast, m, mem_chainedTo.2 ⟨hrun, hmode, hchain⟩, rfl⟩
  | succ k ih =>
    obtain ⟨hlast, c, hc, hunder⟩ := ih h.2
    exact ⟨hlast, c, hc, h.1, hunder⟩

/-- Whatever steps under a timer chained to another is chained itself. -/
theorem StepsUnder.chained (hc : c ∈ chainedTo ts n) (h : StepsUnder ts c k m) :
    (look ts m).running = true ∧ (look ts m).mode = .chained := by
  cases k with
  | zero =>
    obtain rfl : m = c := h
    obtain ⟨hrun, hmode, -⟩ := mem_chainedTo.1 hc
    exact ⟨hrun, hmode⟩
  | succ k => exact ⟨h.1.1, h.1.2.1⟩

end

/-- The timers below n are a tree: each is one number of links away. -/
def Rooted (ts : Vector Timer 8) (n : TimerId) : Prop :=
  ∀ m k k', StepsUnder ts n k m → StepsUnder ts n k' m → k = k'

/-- A timer that is not chained is the root of a tree: no chain leads on from it. -/
theorem rooted_of_not_chained {ts : Vector Timer 8} {n : TimerId} (hn : (look ts n).mode ≠ .chained) :
    Rooted ts n := by
  intro m k
  induction k generalizing m with
  | zero =>
    intro k' h h'
    obtain rfl : m = n := h
    cases k' with
    | zero => rfl
    | succ k' => exact absurd h'.1.2.1 hn
  | succ k ih =>
    intro k' h h'
    cases k' with
    | zero =>
      obtain rfl : m = n := h'
      exact absurd h.1.2.1 hn
    | succ k' => exact congrArg (· + 1) (ih _ k' h.2 h'.2)

theorem Rooted.child {ts : Vector Timer 8} {n c : TimerId} (h : Rooted ts n) (hlast : (look ts n).count = 1)
    (hc : c ∈ chainedTo ts n) : Rooted ts c := fun m _ _ hk hk' =>
  Nat.succ_injective (h m _ _ (hk.of_child hlast hc) (hk'.of_child hlast hc))

/-- In a tree of eight timers no timer is more than seven links away: the timers on the way to it differ. -/
theorem Rooted.depth_lt {ts : Vector Timer 8} {n m : TimerId} {k : Nat} (h : Rooted ts n)
    (hm : StepsUnder ts n k m) : k < 8 := by
  have hpath : ∀ j ≤ k, ∃ x, StepsUnder ts n j x := by
    intro j hj
    induction k generalizing m with
    | zero => exact ⟨m, Nat.le_zero.1 hj ▸ hm⟩
    | succ k ih =>
      rcases Nat.le_succ_iff.1 hj with hle | rfl
      · exact ih hm.2 hle
      · exact ⟨m, hm⟩
  choose f hf using hpath
  by_contra hge
  have hinj : Function.Injective fun j : Fin (k + 1) => f j.val (Nat.lt_succ_iff.1 j.isLt) := by
    intro i j hij
    have hi := hf i.val (Nat.lt_succ_iff.1 i.isLt)
    have hj := hf j.val (Nat.lt_succ_iff.1 j.isLt)
    dsimp only at hij
    rw [hij] at hi
    exact Fin.ext (h _ _ _ hi hj)
  have hcard := Fintype.card_le_of_injective _ hinj
  simp only [Fintype.card_fin] at hcard
  omega

/-! ## A step with all that follows it -/

/-- Two banks agree in which timers run, and in their modes and chains. -/
def SameChains (xs ts : Vector Timer 8) : Prop :=
  ∀ m, (look xs m).running = (look ts m).running ∧ (look xs m).mode = (look ts m).mode
    ∧ (look xs m).chain = (look ts m).chain

theorem SameChains.chainedTo {xs ts : Vector Timer 8} (h : SameChains xs ts) (n : TimerId) :
    chainedTo xs n = chainedTo ts n := by
  refine List.filter_congr fun m _ => ?_
  obtain ⟨hrun, hmode, hchain⟩ := h m
  rw [hrun, hmode, hchain]

theorem Timer.stepped_chained {t : Timer} (h : t.mode = .chained) :
    t.stepped.running = t.running ∧ t.stepped.mode = t.mode ∧ t.stepped.chain = t.chain := by
  rw [Timer.stepped_of_chained h]
  exact ⟨rfl, rfl, rfl⟩

/-- From bank xs to bank r.1 the timers of a set P have stepped, as they stood in bank ts, and r.2 lists those of them that
expired. -/
structure SteppedIn (ts : Vector Timer 8) (P : TimerId → Prop) (xs : Vector Timer 8)
    (r : Vector Timer 8 × List TimerId) : Prop where
  stepped (m : TimerId) : P m → look r.1 m = (look ts m).stepped
  others (m : TimerId) : ¬ P m → look r.1 m = look xs m
  expired (m : TimerId) : m ∈ r.2 ↔ P m ∧ (look ts m).count = 1
  nodup : r.2.Nodup

theorem SteppedIn.congr {ts xs : Vector Timer 8} {P Q : TimerId → Prop} {r : Vector Timer 8 × List TimerId}
    (h : SteppedIn ts P xs r) (hPQ : ∀ m, Q m ↔ P m) : SteppedIn ts Q xs r where
  stepped m hm := h.stepped m ((hPQ m).1 hm)
  others m hm := h.others m fun hP => hm ((hPQ m).2 hP)
  expired m := by rw [h.expired, hPQ]
  nodup := h.nodup

/-- Timer m steps by a step of timer n, fewer than d links down the chain. -/
def StepsWithin (ts : Vector Timer 8) (n : TimerId) (d : Nat) (m : TimerId) : Prop := ∃ k < d, StepsUnder ts n k m

/-- What the steps of a tree's children do, given what the step of a tree of less depth does: each child's tree steps
by itself, for the trees have no timer in common. -/
theorem stepAll_tree {ts base : Vector Timer 8} {n : TimerId} {d : Nat} (hroot : Rooted ts n)
    (hlast : (look ts n).count = 1)
    (htree : ∀ c xs, SameChains xs ts → Rooted ts c → (∀ k m, StepsUnder ts c k m → look xs m = look ts m) →
      SteppedIn ts (StepsWithin ts c d) xs (stepBank d c xs))
    (hchains : SameChains base ts)
    (hbase : ∀ c ∈ chainedTo ts n, ∀ k m, StepsUnder ts c k m → look base m = look ts m)
    (l done : List TimerId) (acc : Vector Timer 8 × List TimerId) (hnodup : (done ++ l).Nodup)
    (hl : ∀ c ∈ done ++ l, c ∈ chainedTo ts n)
    (hacc : SteppedIn ts (fun m => ∃ c ∈ done, StepsWithin ts c d m) base acc) :
    SteppedIn ts (fun m => ∃ c ∈ done ++ l, StepsWithin ts c d m) base (stepAll d l acc) := by
  induction l generalizing done acc with
  | nil => simpa [stepAll] using hacc
  | cons c l ih =>
    have hc : c ∈ chainedTo ts n := hl c (by simp)
    have hapart {m : TimerId} {k : Nat} (hm : StepsUnder ts c k m) : ¬ ∃ c' ∈ done, StepsWithin ts c' d m := by
      rintro ⟨c', hc', k', -, hm'⟩
      have hdepth := Nat.succ_injective
        (hroot m _ _ (hm.of_child hlast hc) (hm'.of_child hlast (hl c' (by simp [hc']))))
      obtain rfl : c = c' := hm.root_unique (hdepth ▸ hm')
      exact (List.nodup_append.1 hnodup).2.2 _ hc' _ List.mem_cons_self rfl
    have hsame : SameChains acc.1 ts := fun m => by
      by_cases hm : ∃ c' ∈ done, StepsWithin ts c' d m
      · obtain ⟨c', hc', k, -, hunder⟩ := id hm
        rw [hacc.stepped m hm]
        exact Timer.stepped_chained (hunder.chained (hl c' (by simp [hc']))).2
      · rw [hacc.others m hm]
        exact hchains m
    have hstep := htree c acc.1 hsame (hroot.child hlast hc) fun k m hm => by
      rw [hacc.others m (hapart hm), hbase c hc k m hm]
    rw [stepAll_cons]
    have hall := ih (done ++ [c]) ((stepBank d c acc.1).1, acc.2 ++ (stepBank d c acc.1).2) (by simpa using hnodup)
      (by simpa using hl) ⟨fun m hm => ?_, fun m hm => ?_, fun m => ?_, ?_⟩
    · simpa using hall
    · by_cases hcm : StepsWithin ts c d m
      · exact hstep.stepped m hcm
      · rw [hstep.others m hcm]
        refine hacc.stepped m ?_
        obtain ⟨c', hc', hm'⟩ := hm
        rcases List.mem_append.1 hc' with hdone | hnew
        · exact ⟨c', hdone, hm'⟩
        · rw [List.mem_singleton] at hnew
          exact absurd (hnew ▸ hm') hcm
    · rw [hstep.others m fun hcm => hm ⟨c, by simp, hcm⟩]
      exact hacc.others m fun ⟨c', hc', hm'⟩ => hm ⟨c', by simp [hc'], hm'⟩
    · rw [List.mem_append, hacc.expired, hstep.expired]
      simp only [List.mem_append, List.mem_singleton, or_and_right, exists_or, exists_eq_left]
    · refine List.nodup_append.2 ⟨hacc.nodup, hstep.nodup, fun m hm m' hm' hmm => ?_⟩
      subst hmm
      obtain ⟨k, -, hunder⟩ := ((hstep.expired m).1 hm').1
      exact hapart hunder ((hacc.expired m).1 hm).1

/-- A step takes every timer of its tree, to the depth it follows, once (R110, R111). -/
theorem stepBank_tree (ts : Vector Timer 8) (d : Nat) (n : TimerId) (xs : Vector Timer 8) (hchains : SameChains xs ts)
    (hroot : Rooted ts n) (hagree : ∀ k m, StepsUnder ts n k m → look xs m = look ts m) :
    SteppedIn ts (StepsWithin ts n d) xs (stepBank d n xs) := by
  induction d generalizing n xs with
  | zero =>
    have hnone (m : TimerId) : ¬ StepsWithin ts n 0 m := fun ⟨k, hk, _⟩ => absurd hk (Nat.not_lt_zero k)
    exact ⟨fun m hm => absurd hm (hnone m), fun _ _ => rfl, fun m => by simp [stepBank, hnone], List.nodup_nil⟩
  | succ d ih =>
    have hn : look xs n = look ts n := hagree 0 n rfl
    by_cases hlast : (look ts n).count = 1
    · have hcount : (look xs n).counted.count = 0 := by rw [hn]; exact Timer.counted_count_eq_zero.2 hlast
      have hbase : SameChains (place xs n (look xs n).counted) ts := fun m => by
        rw [look_place]
        split
        next hm => rw [hm, hn]; exact ⟨rfl, rfl, rfl⟩
        next => exact hchains m
      have hne {c : TimerId} (hc : c ∈ chainedTo ts n) {k : Nat} {m : TimerId} (hm : StepsUnder ts c k m) : m ≠ n := by
        rintro rfl
        exact absurd (hroot m 0 _ rfl (hm.of_child hlast hc)) (Nat.zero_ne_add_one _)
      have hall := stepAll_tree hroot hlast (fun c xs => ih c xs) hbase (fun c hc k m hm => by
          rw [look_place_of_ne _ _ (hne hc hm)]
          exact hagree _ m (hm.of_child hlast hc)) (chainedTo ts n) [] (place xs n (look xs n).counted, [])
        (show (chainedTo ts n).Nodup from (List.nodup_finRange 8).filter _) (fun c hc => hc)
        ⟨fun m ⟨c, hc, _⟩ => absurd hc (by simp), fun _ _ => rfl, fun m => by simp, List.nodup_nil⟩
      rw [List.nil_append] at hall
      have hself : ¬ ∃ c ∈ chainedTo ts n, StepsWithin ts c d n := fun ⟨c, hc, k, _, hm⟩ => hne hc hm rfl
      have hwithin (m : TimerId) : StepsWithin ts n (d + 1) m ↔ m = n ∨ ∃ c ∈ chainedTo ts n, StepsWithin ts c d m := by
        refine ⟨fun ⟨k, hk, hm⟩ => ?_, ?_⟩
        · cases k with
          | zero => exact .inl hm
          | succ k =>
            obtain ⟨-, c, hc, hunder⟩ := hm.to_child
            exact .inr ⟨c, hc, k, Nat.lt_of_succ_lt_succ hk, hunder⟩
        · rintro (rfl | ⟨c, hc, k, hk, hm⟩)
          · exact ⟨0, Nat.succ_pos d, rfl⟩
          · exact ⟨k + 1, Nat.succ_lt_succ hk, hm.of_child hlast hc⟩
      rw [stepBank_of_last hcount, hchains.chainedTo]
      refine SteppedIn.congr ⟨fun m hm => ?_, fun m hm => ?_, fun m => ?_, ?_⟩ hwithin
      · rw [look_place]
        split
        next hmn =>
          rw [hall.others n hself, look_place_same, hn, hmn, Timer.stepped, if_pos hlast]
        next hmn => exact hall.stepped m (hm.resolve_left hmn)
      · obtain ⟨hmn, hm⟩ := not_or.1 hm
        rw [look_place_of_ne _ _ hmn, hall.others m hm, look_place_of_ne _ _ hmn]
      · rw [List.mem_cons, hall.expired]
        constructor
        · rintro (rfl | ⟨hm, hcm⟩)
          · exact ⟨.inl rfl, hlast⟩
          · exact ⟨.inr hm, hcm⟩
        · rintro ⟨rfl | hm, hcm⟩
          · exact .inl rfl
          · exact .inr ⟨hm, hcm⟩
      · exact List.nodup_cons.2 ⟨fun hmem => hself ((hall.expired n).1 hmem).1, hall.nodup⟩
    · have hcount : (look xs n).counted.count ≠ 0 := by rw [hn]; exact mt Timer.counted_count_eq_zero.1 hlast
      have hwithin (m : TimerId) : StepsWithin ts n (d + 1) m ↔ m = n := by
        refine ⟨fun ⟨k, _, hm⟩ => ?_, fun hm => ⟨0, Nat.succ_pos d, hm⟩⟩
        cases k with
        | zero => exact hm
        | succ k => exact absurd hm.to_child.1 hlast
      rw [stepBank_of_more hcount]
      refine SteppedIn.congr (P := fun m => m = n) ⟨fun m hm => ?_, fun m hm => ?_, fun m => ?_, List.nodup_nil⟩ hwithin
      · rw [hm, look_place_same, hn, Timer.stepped, if_neg hlast]
      · exact look_place_of_ne _ _ hm
      · simp only [List.not_mem_nil, false_iff, not_and]
        rintro rfl
        exact hlast

/-- Timer m steps by a step of timer n (R110). -/
def Steps (ts : Vector Timer 8) (n m : TimerId) : Prop := ∃ k, StepsUnder ts n k m

/-- A step of a timer that is not chained, with all that follows it: each timer that steps with it does so once, and those
at their last step expire (R110, R111). -/
theorem stepBank_root {ts : Vector Timer 8} {n : TimerId} (hn : (look ts n).mode ≠ .chained) :
    SteppedIn ts (Steps ts n) ts (stepBank 8 n ts) := by
  have hroot := rooted_of_not_chained hn
  refine (stepBank_tree ts 8 n ts (fun _ => ⟨rfl, rfl, rfl⟩) hroot fun _ _ _ => rfl).congr fun m => ?_
  exact ⟨fun ⟨k, hm⟩ => ⟨k, hroot.depth_lt hm, hm⟩, fun ⟨k, _, hm⟩ => ⟨k, hm⟩⟩

/-- What steps with a timer is that timer, or a running one chained to a timer that steps with it for the last time. -/
theorem steps_iff {ts : Vector Timer 8} {n m : TimerId} : Steps ts n m ↔
    m = n ∨ ((look ts m).running = true ∧ (look ts m).mode = .chained ∧ (look ts (look ts m).chain).count = 1)
      ∧ Steps ts n (look ts m).chain := by
  constructor
  · rintro ⟨k, hm⟩
    cases k with
    | zero => exact .inl hm
    | succ k => exact .inr ⟨hm.1, k, hm.2⟩
  · rintro (hm | ⟨hlink, k, hm⟩)
    · exact ⟨0, hm⟩
    · exact ⟨k + 1, hlink, hm⟩

/-- The timers that expire with timer n, as the statements name them (R110). -/
theorem expiresWith_iff {s : State} {n m : TimerId} (hn : (s.timer n).mode ≠ .chained)
    (hlast : (s.timer n).count = 1) :
    s.expiresWith n m = true ↔ Steps s.timers n m ∧ (s.timer m).count = 1 := by
  have hbelow (k : Nat) (m : TimerId) :
      s.expiresBelow n k m = true ↔ StepsUnder s.timers n k m ∧ (s.timer m).count = 1 := by
    induction k generalizing m with
    | zero =>
      refine beq_iff_eq.trans ⟨fun hm => ⟨hm, hm ▸ hlast⟩, And.left⟩
    | succ k ih =>
      rw [State.expiresBelow, StepsUnder, Bool.and_eq_true, ih]
      simp only [Bool.and_eq_true, beq_iff_eq, State.timer]
      tauto
  rw [State.expiresWith, List.any_eq_true]
  constructor
  · rintro ⟨k, -, hk⟩
    exact ⟨⟨k, ((hbelow k m).1 hk).1⟩, ((hbelow k m).1 hk).2⟩
  · rintro ⟨⟨k, hk⟩, hm⟩
    exact ⟨k, List.mem_range.2 ((rooted_of_not_chained hn).depth_lt hk), (hbelow k m).2 ⟨hk, hm⟩⟩

/-! ## TIMER_EXPIRY -/

/-- The timers that an order names come first, in its order; nothing is lost or doubled (log 6). -/
theorem mem_preferring {order xs : List TimerId} {m : TimerId} : m ∈ preferring order xs ↔ m ∈ xs := by
  simp only [preferring, List.mem_append, List.mem_filter, List.mem_eraseDups, List.contains_iff_mem,
    Bool.not_eq_true', ← Bool.not_eq_true]
  tauto

theorem nodup_eraseDups (l : List TimerId) : l.eraseDups.Nodup := by
  induction hn : l.length using Nat.strong_induction_on generalizing l with
  | _ n ih =>
    cases l with
    | nil => exact List.nodup_nil
    | cons m l =>
      rw [List.eraseDups_cons]
      refine List.nodup_cons.2 ⟨fun hm => ?_, ih _ ?_ _ rfl⟩
      · simp [List.mem_eraseDups] at hm
      · have := List.length_filter_le (fun b => !b == m) l
        rw [← hn, List.length_cons]
        omega

theorem eraseDups_of_nodup {l : List TimerId} (h : l.Nodup) : l.eraseDups = l := by
  induction l with
  | nil => rfl
  | cons m l ih =>
    obtain ⟨hm, hl⟩ := List.nodup_cons.1 h
    have hfilter : l.filter (fun b => !b == m) = l := List.filter_eq_self.2 fun b hb => by
      simpa using fun hbm : b = m => hm (hbm ▸ hb)
    rw [List.eraseDups_cons, hfilter, ih hl]

theorem preferring_nodup {xs : List TimerId} (order : List TimerId) (h : xs.Nodup) : (preferring order xs).Nodup := by
  refine List.nodup_append.2 ⟨(nodup_eraseDups order).filter _, h.filter _, fun m hm m' hm' hmm => ?_⟩
  subst hmm
  simp [List.mem_filter] at hm hm'
  exact hm'.2 hm.1

theorem sameView_timers (s : State) (ts : Vector Timer 8) : SameView s { s with timers := ts } :=
  ⟨rfl, rfl, rfl, rfl, rfl, fun _ => rfl⟩

/-- The pool after occurrences reads what the operations of the pool read. -/
theorem SameView.foldl_occurrence {s t : State} (h : SameView s t) (l : List TimerId) :
    SameView (l.foldl (fun (x : State) m => x.occurrence (timerSource m)) s)
      (l.foldl (fun (x : State) m => x.occurrence (timerSource m)) t) := by
  induction l generalizing s t with
  | nil => exact h
  | cons m l ih => exact ih (h.occurrence (timerSource m) 0)

theorem gateOpen_iff {s : State} {x : Timer} :
    s.gateOpen x = true ↔ ∀ g ∈ x.gate, (s.line g).recognised = true := by
  unfold State.gateOpen
  cases x.gate <;> simp

theorem isDue_timer_iff {s : State} {n : TimerId} :
    s.isDue (.timer n) = true ↔ (s.timer n).running = true ∧ (s.timer n).stepDue = true := Bool.and_eq_true_iff

/-- The TIMER_EXPIRY of a step that is due takes it, and the offers follow (R109, R111). -/
theorem timerExpiry_of_due {s : State} {n : TimerId} {chainOrder : List TimerId}
    (hrun : (s.timer n).running = true) (hdue : (s.timer n).stepDue = true) :
    s.expiryRow chainOrder (.timer n) = (s.stepTimer n chainOrder).recompute := by
  have hd : s.isDue (.timer n) = true := isDue_timer_iff.2 ⟨hrun, hdue⟩
  rw [expiryRow_of_due hd, takeEvent_timer hd]

/-- The ports after a step: the offers alone have changed. -/
theorem stepTimer_recompute_port (s : State) (n : TimerId) (chainOrder : List TimerId) (g : Port) :
    (s.stepTimer n chainOrder).recompute.port g =
      { s.port g with attn := ((s.stepTimer n chainOrder).recompute.offer g).isSome } := by
  rw [recompute_port, recompute_offer]
  have hport : (s.stepTimer n chainOrder).port g = s.port g := by rw [stepTimer_frame]; rfl
  rw [hport]

/-- Settles O49: with the gate high the tree of the chained steps is taken, and with it low none of it. -/
theorem timerExpiryReloadsOrStops : Obligations.TimerExpiryReloadsOrStops := by
  intro n chainOrder s
  refine ⟨_, rfl, fun hnot => expiryRow_of_not_due ?_ chainOrder, fun hrun hdue hgate => ?_,
    fun hrun hdue hlast hmode hgate => ?_⟩
  · rw [← Bool.not_eq_true, isDue_timer_iff]
    rintro ⟨hrun, hdue⟩
    rcases hnot with hstopped | hnone
    · rw [hstopped] at hrun; cases hrun
    · rw [hnone] at hdue; cases hdue
  · have hclosed : ¬ s.gateOpen (s.timer n) = true := by
      obtain ⟨g, hg, hlow⟩ := hgate
      rw [gateOpen_iff]
      intro hopen
      rw [hopen g hg] at hlow
      cases hlow
    rw [timerExpiry_of_due hrun hdue]
    have hport := stepTimer_recompute_port s n chainOrder
    rw [State.stepTimer, if_neg hclosed] at hport ⊢
    exact ⟨rfl, hport⟩
  · have hopen : s.gateOpen (s.timer n) = true := gateOpen_iff.2 hgate
    have hfree : (s.timer n).mode ≠ .chained := by rcases hmode with h | h <;> rw [h] <;> decide
    have htree := stepBank_root (ts := s.timers) hfree
    have htimers : (s.stepTimer n chainOrder).timers = (stepBank 8 n s.timers).1 := by
      rw [stepTimer_timers, if_pos hopen]
    have hexpired (m : TimerId) : m ∈ (stepBank 8 n s.timers).2 ↔ s.expiresWith n m = true :=
      (htree.expired m).trans (expiresWith_iff hfree hlast).symm
    rw [timerExpiry_of_due hrun hdue]
    refine ⟨?_, stepTimer_recompute_port s n chainOrder, ⟨preferring chainOrder (stepBank 8 n s.timers).2,
      preferring_nodup chainOrder htree.nodup, fun m => mem_preferring.trans (hexpired m), fun hnodup =>
      ⟨(stepBank 8 n s.timers).2.filter fun m => !chainOrder.contains m, ?_⟩, ?_⟩,
      ?_, fun m hm => ?_⟩
    · rw [stepTimer_frame]
      rfl
    · rw [preferring, eraseDups_of_nodup hnodup]
      refine congrArg (· ++ _) (List.filter_congr fun m _ => ?_)
      rw [Bool.eq_iff_iff, List.contains_iff_mem, hexpired]
    · rw [recompute_pool, State.stepTimer, if_pos hopen]
      exact ((sameView_timers s _).foldl_occurrence _).pool
    · rw [State.timer, recompute_timers, htimers, htree.stepped n (steps_iff.2 (.inl rfl))]
      exact Timer.stepped_of_last hmode hlast
    · rw [State.timer, recompute_timers, htimers]
      by_cases hsteps : Steps s.timers n m
      · obtain ⟨⟨hrun', hmode', hlast'⟩, hparent⟩ := (steps_iff.1 hsteps).resolve_left hm
        rw [htree.stepped m hsteps, if_pos ⟨hrun', hmode', (expiresWith_iff hfree hlast).2 ⟨hparent, hlast'⟩⟩]
        exact Timer.stepped_of_chained hmode'
      · rw [htree.others m hsteps, if_neg]
        · rfl
        · rintro ⟨hrun', hmode', hparent⟩
          obtain ⟨hparent, hlast'⟩ := (expiresWith_iff hfree hlast).1 hparent
          exact hsteps (steps_iff.2 (.inr ⟨⟨hrun', hmode', hlast'⟩, hparent⟩))

end Sys2Proof.Machine
end

section
/-! SUPPORT. What the expiries of an advance read: of the lines the recognised levels alone, and nothing of the ATTN lines. So
an expiry taken inside its advance does what it does in a row of its own (R79, R106). -/

namespace Sys2Proof.Machine

/-! ## Two states that the expiries take for one -/

/-- Two states that differ in their ATTN lines and in the runs and due samples of their lines alone. -/
structure Alike (s t : State) : Prop where
  view : SameView s t
  causes : SameCauses s t
  timers : t.timers = s.timers
  faults : t.faults = s.faults
  pending : t.pending = s.pending
  port (g : Port) : t.port g = { s.port g with attn := (t.port g).attn }

theorem Alike.refl (s : State) : Alike s s := ⟨.refl s, .refl s, rfl, rfl, rfl, fun _ => rfl⟩

theorem Alike.trans {s t u : State} (h : Alike s t) (k : Alike t u) : Alike s u where
  view := ⟨k.view.timebase.trans h.view.timebase, k.view.sources.trans h.view.sources,
    k.view.faultLevel.trans h.view.faultLevel, k.view.token.trans h.view.token, k.view.pool.trans h.view.pool,
    fun g => (k.view.attached g).trans (h.view.attached g)⟩
  causes := ⟨fun n => (k.causes.recognised n).trans (h.causes.recognised n), k.causes.records.trans h.causes.records⟩
  timers := k.timers.trans h.timers
  faults := k.faults.trans h.faults
  pending := k.pending.trans h.pending
  port g := by rw [k.port g, h.port g]

/-- Two such states with the same lines have the same offers and become one as the ATTN lines follow them. -/
theorem Alike.recompute_eq {s t : State} (h : Alike s t) (hlines : t.lines = s.lines) : t.recompute = s.recompute := by
  have hoffer (g : Port) : t.offer g = s.offer g :=
    offer_congr h.view.pool h.view.token (by rw [h.port g]) (by rw [h.port g]) (by rw [h.port g])
  refine State.ext_fields h.view.timebase h.view.sources h.view.faultLevel hlines h.view.pool ?_ h.timers h.view.token
    h.faults h.pending
  refine congrArg fill (funext fun g => ?_)
  rw [h.port g, hoffer]

theorem alike_recompute (s : State) : Alike s s.recompute :=
  ⟨⟨rfl, rfl, rfl, rfl, rfl, recompute_attached s⟩, ⟨fun _ => rfl, rfl⟩, rfl, rfl, rfl, fun g => by rw [recompute_port]⟩

section
variable {s t : State} (h : Alike s t)
include h

theorem Alike.of_onlyPool {s' t' : State} (hs : OnlyPool s s') (ht : OnlyPool t t') (hview : SameView s' t') :
    Alike s' t' where
  view := hview
  causes := h.causes.of_onlyPool hs ht
  timers := by rw [ht.timers, hs.timers, h.timers]
  faults := by rw [ht.faults, hs.faults, h.faults]
  pending := by rw [ht.pending, hs.pending, h.pending]
  port g := by rw [ht.port, hs.port, h.port]

theorem Alike.handleOf (i : SlotId) : t.handleOf i = s.handleOf i := by
  rw [State.handleOf, h.view.slotAt]
  rfl

theorem Alike.freeTicket (i : SlotId) : Alike (s.freeTicket i) (t.freeTicket i) :=
  h.of_onlyPool (freeTicket_onlyPool s i) (freeTicket_onlyPool t i) (h.view.freeTicket i)

theorem Alike.setTicket (i : SlotId) (u : Ticket) : Alike (s.setTicket i u) (t.setTicket i u) :=
  h.of_onlyPool rfl rfl (h.view.setTicket i u)

theorem Alike.occurrence (src : SourceId) : Alike (s.occurrence src) (t.occurrence src) :=
  h.of_onlyPool (occurrence_onlyPool s src 0) (occurrence_onlyPool t src 0) (h.view.occurrence src 0)

theorem Alike.returnTicket (i : SlotId) : Alike (s.returnTicket i) (t.returnTicket i) :=
  h.of_onlyPool (returnTicket_onlyPool s i) (returnTicket_onlyPool t i) (h.view.returnTicket h.causes i)

theorem Alike.leaveRound (g : Port) (i : SlotId) : Alike (s.leaveRound g i) (t.leaveRound g i) :=
  h.of_onlyPool (leaveRound_onlyPool s g i) (leaveRound_onlyPool t g i) (h.view.leaveRound h.causes g i)

theorem Alike.settle (i : SlotId) (src : SourceId) : Alike (s.settle i src) (t.settle i src) :=
  h.of_onlyPool (settle_onlyPool s i src) (settle_onlyPool t i src) (h.view.settle h.causes i src)

theorem Alike.appendFault (r : FaultRecord) : Alike (s.appendFault r) (t.appendFault r) := by
  rw [appendFault_eq, appendFault_eq, h.faults]
  refine Alike.occurrence (s := { s with faults := s.faults.appended r }) (t := { t with faults := s.faults.appended r })
    ?_ faultSource
  exact ⟨⟨h.view.timebase, h.view.sources, h.view.faultLevel, h.view.token, h.view.pool, h.view.attached⟩,
    ⟨h.causes.recognised, rfl⟩, h.timers, rfl, h.pending, h.port⟩

theorem Alike.setStack (p : Port) (es : List Entry) : Alike (s.setStack p es) (t.setStack p es) where
  view := ⟨h.view.timebase, h.view.sources, h.view.faultLevel, h.view.token, h.view.pool, fun g => by
    rw [(sameView_setStack t p es).attached, (sameView_setStack s p es).attached, h.view.attached]⟩
  causes := ⟨h.causes.recognised, h.causes.records⟩
  timers := h.timers
  faults := h.faults
  pending := h.pending
  port g := by
    rw [State.setStack_port, State.setStack_port]
    split
    · rw [h.port p]
    · exact h.port g

/-! ## The expiries -/

theorem Alike.lapseTicket (p : Port) (hd : Handle) : Alike (s.lapseTicket p hd) (t.lapseTicket p hd) := by
  unfold State.lapseTicket
  rw [h.view.named]
  cases s.named hd with
  | none => exact h
  | some u =>
    dsimp only
    split
    · unfold State.lapseSingle
      rw [h.handleOf, h.view.timebase]
      split
      · exact (h.freeTicket _).appendFault _
      · exact (h.setTicket _ _).returnTicket _
    · unfold State.lapseShare
      rw [h.handleOf, h.view.timebase]
      exact (h.leaveRound p _).appendFault _
    · exact h

theorem Alike.lapseEntry (p : Port) (k : Fin 4) : Alike (s.lapseEntry p k) (t.lapseEntry p k) := by
  have hstack : (t.port p).stack = (s.port p).stack := by rw [h.port p]
  unfold State.lapseEntry State.entryAt
  rw [hstack]
  cases (s.port p).stack[k.val]? with
  | none => exact h
  | some e => exact (h.setStack p _).lapseTicket p e.handle

theorem Alike.collect (i : SlotId) : Alike (s.collect i) (t.collect i) := by
  have hfold (f : Port → FaultRecord) (l : List Port) {x y : State} (hxy : Alike x y) :
      Alike (l.foldl (fun st p => st.appendFault (f p)) x) (l.foldl (fun st p => st.appendFault (f p)) y) := by
    induction l generalizing x y with
    | nil => exact hxy
    | cons p l ih => exact ih (hxy.appendFault (f p))
  unfold State.collect
  rw [h.view.ticketAt, h.handleOf, h.view.timebase]
  cases s.ticketAt i with
  | none => exact h
  | some u =>
    dsimp only
    split
    · refine hfold _ _ ?_
      split
      · exact h.settle i u.source
      · exact h.setTicket i _
    · exact h

theorem Alike.endReservation (i : SlotId) : Alike (s.endReservation i) (t.endReservation i) := by
  unfold State.endReservation
  rw [h.view.ticketAt]
  cases s.ticketAt i with
  | none => exact h
  | some u => exact h.setTicket i _

theorem Alike.timer (n : TimerId) : t.timer n = s.timer n := by rw [State.timer, h.timers]; rfl

theorem Alike.setTimers (ts : Vector Timer 8) : Alike { s with timers := ts } { t with timers := ts } :=
  ⟨⟨h.view.timebase, h.view.sources, h.view.faultLevel, h.view.token, h.view.pool, h.view.attached⟩,
    ⟨h.causes.recognised, h.causes.records⟩, rfl, h.faults, h.pending, h.port⟩

theorem Alike.stepTimer (n : TimerId) (chainOrder : List TimerId) :
    Alike (s.stepTimer n chainOrder) (t.stepTimer n chainOrder) := by
  have hfold (l : List TimerId) {x y : State} (hxy : Alike x y) :
      Alike (l.foldl (fun st m => st.occurrence (timerSource m)) x)
        (l.foldl (fun st m => st.occurrence (timerSource m)) y) := by
    induction l generalizing x y with
    | nil => exact hxy
    | cons m l ih => exact ih (hxy.occurrence (timerSource m))
  have hgate : t.gateOpen (s.timer n) = s.gateOpen (s.timer n) := by
    unfold State.gateOpen
    cases (s.timer n).gate with
    | none => rfl
    | some g => exact h.causes.recognised g
  unfold State.stepTimer
  rw [h.timer, hgate, h.timers]
  split
  · exact hfold _ (h.setTimers _)
  · unfold State.setTimer
    rw [h.timers]
    exact h.setTimers _

/-- The expiries that are due, and not the samples, are the same. -/
theorem Alike.isDue {e : AdvanceEvent} (he : ∀ n, e ≠ .line n) : t.isDue e = s.isDue e := by
  unfold State.isDue State.entryAt
  cases e with
  | line n => exact absurd rfl (he n)
  | timer n => dsimp only; rw [h.timer]
  | service g k => dsimp only; rw [h.port g, h.view.timebase]
  | collection i => dsimp only; rw [h.view.ticketAt, h.view.timebase]
  | affinity i => dsimp only; rw [h.view.ticketAt, h.view.timebase]

/-- An expiry does the same, whatever the pins: those are for the samples. -/
theorem Alike.takeEvent {e : AdvanceEvent} (he : ∀ n, e ≠ .line n) (pins pins' : BitVec 32)
    (chainOrder : List TimerId) : Alike (s.takeEvent pins chainOrder e) (t.takeEvent pins' chainOrder e) := by
  unfold State.takeEvent
  rw [h.isDue he]
  split
  · cases e with
    | line n => exact absurd rfl (he n)
    | timer n => exact h.stepTimer n chainOrder
    | service g k => exact h.lapseEntry g k
    | collection i => exact h.collect i
    | affinity i => exact h.endReservation i
  · exact h

end

theorem Alike.symm {s t : State} (h : Alike s t) : Alike t s where
  view := ⟨h.view.timebase.symm, h.view.sources.symm, h.view.faultLevel.symm, h.view.token.symm, h.view.pool.symm,
    fun g => (h.view.attached g).symm⟩
  causes := ⟨fun n => (h.causes.recognised n).symm, h.causes.records.symm⟩
  timers := h.timers.symm
  faults := h.faults.symm
  pending := h.pending.symm
  port g := by rw [h.port g]

/-! ## The row of an expiry after an advance that held it -/

/-- Every event but a sample is among the expiries; the events of an advance are all there are. -/
theorem mem_allAdvanceEvents (x : AdvanceEvent) : x ∈ allAdvanceEvents := by
  cases x <;> simp [allAdvanceEvents, allExpiries]

theorem ne_line_of_rowTaking {chainOrder : List TimerId} {e : AdvanceEvent} {c : Instr}
    (hc : rowTaking chainOrder e = some c) (n : LineId) : e ≠ .line n := by
  rintro rfl
  cases hc

/-- The row that takes an expiry is its event (log 7). -/
theorem exec_rowTaking {chainOrder : List TimerId} {e : AdvanceEvent} {c : Instr}
    (hc : rowTaking chainOrder e = some c) (s : State) : exec c s = .next (s.expiryRow chainOrder e) := by
  cases e with
  | line n => cases hc
  | _ => obtain rfl := Option.some.inj hc; rfl

/-- State a is what state b becomes by expiry e, but for what the expiry does not read. -/
def Awaits (chainOrder : List TimerId) (e : AdvanceEvent) (a b : State) : Prop :=
  a.lines = b.lines ∧ Alike (b.takeEvent 0 chainOrder e) a

theorem awaits_takeEvent {e : AdvanceEvent} (he : ∀ n, e ≠ .line n) (pins : BitVec 32) (chainOrder : List TimerId)
    (b : State) : Awaits chainOrder e (b.takeEvent pins chainOrder e) b :=
  ⟨takeEvent_lines he, (Alike.refl b).takeEvent he 0 pins chainOrder⟩

theorem awaits_of_taken {e : AdvanceEvent} {b : State} (hd : b.isDue e = false) (chainOrder : List TimerId) :
    Awaits chainOrder e b b := ⟨rfl, by rw [takeEvent_of_due hd]; exact .refl b⟩

/-- The row of the expiry, after the offers have followed, brings the state that the expiry inside the advance brings. -/
theorem Awaits.row {chainOrder : List TimerId} {e : AdvanceEvent} {a b : State} (h : Awaits chainOrder e a b)
    (he : ∀ n, e ≠ .line n) : b.recompute.expiryRow chainOrder e = a.recompute := by
  obtain ⟨hlines, halike⟩ := h
  cases hdue : b.isDue e with
  | false =>
    rw [takeEvent_of_due hdue] at halike
    rw [expiryRow_of_not_due (((alike_recompute b).isDue he).trans hdue)]
    exact (halike.recompute_eq hlines).symm
  | true =>
    rw [expiryRow_of_due (((alike_recompute b).isDue he).trans hdue)]
    have hboth := ((alike_recompute b).takeEvent he 0 0 chainOrder).symm.trans halike
    refine (hboth.recompute_eq ?_).symm
    rw [hlines, takeEvent_lines he, recompute_lines]

/-! ## An expiry taken last -/

/-- The timers that are due are none of those that step with another (R109, R110). -/
def State.RootsDue (s : State) : Prop := ∀ n, s.isDue (.timer n) = true → (s.timer n).mode ≠ .chained

theorem moveTimebase_rootsDue (s : State) : s.moveTimebase.RootsDue := by
  intro n hd
  have hdue := (isDue_timer_iff.1 hd).2
  rw [moveTimebase_timer] at hdue ⊢
  intro hmode
  have hmode : (s.timer n).mode = .chained := hmode
  simp [Timer.markStep, hmode] at hdue

/-- Each timer keeps its setup through an event. -/
theorem takeEvent_setup (pins : BitVec 32) (chainOrder : List TimerId) (s : State) (e : AdvanceEvent) :
    SameSetup (s.takeEvent pins chainOrder e).timers s.timers := by
  by_cases he : ∃ n, e = .timer n
  · obtain ⟨n, rfl⟩ := he
    cases hdue : s.isDue (.timer n) with
    | false => rw [takeEvent_of_due hdue]; exact .refl _
    | true =>
      rw [takeEvent_timer hdue, stepTimer_timers]
      split
      · exact stepBank_setup 8 n s.timers
      · exact .place rfl rfl rfl rfl rfl
  · rw [takeEvent_timers fun n hn => he ⟨n, hn⟩]
    exact .refl _

theorem State.RootsDue.takeEvent {s : State} (h : s.RootsDue) (pins : BitVec 32) (chainOrder : List TimerId)
    (e : AdvanceEvent) : (s.takeEvent pins chainOrder e).RootsDue := by
  intro n hd
  rw [State.timer, (takeEvent_setup pins chainOrder s e n).1]
  exact h n (takeEvent_due hd)

/-- A timer that does not run chained to another changes by no step but its own. -/
theorem stepBank_of_free {m : TimerId} (depth : Nat) (n : TimerId) (ts : Vector Timer 8) (hne : m ≠ n)
    (hfree : (look ts m).running = false ∨ (look ts m).mode ≠ .chained) :
    look (stepBank depth n ts).1 m = look ts m := by
  induction depth generalizing n ts with
  | zero => rfl
  | succ d ih =>
    have hcounted : look (place ts n (look ts n).counted) m = look ts m := look_place_of_ne _ _ hne
    by_cases hc : (look ts n).counted.count = 0
    · have hall (l : List TimerId) (acc : Vector Timer 8 × List TimerId) (hl : m ∉ l)
          (hacc : look acc.1 m = look ts m) : look (stepAll d l acc).1 m = look ts m := by
        induction l generalizing acc with
        | nil => exact hacc
        | cons c l ihl =>
          obtain ⟨hmc, hml⟩ := List.ne_and_not_mem_of_not_mem_cons hl
          exact ihl _ hml ((ih c acc.1 hmc (hacc ▸ hfree)).trans hacc)
      have hchained : m ∉ chainedTo ts n := by
        rw [mem_chainedTo]
        rintro ⟨hrun, hmode, -⟩
        rcases hfree with h | h
        · rw [h] at hrun; cases hrun
        · exact h hmode
      rw [stepBank_of_last hc, look_place_of_ne _ _ hne]
      exact hall _ _ hchained hcounted
    · rw [stepBank_of_more hc]
      exact hcounted

theorem takeEvent_timer_of_free {s : State} {m : TimerId}
    (hfree : (s.timer m).running = false ∨ (s.timer m).mode ≠ .chained) {pins : BitVec 32} {chainOrder : List TimerId}
    {e : AdvanceEvent} (he : e ≠ .timer m) : (s.takeEvent pins chainOrder e).timer m = s.timer m := by
  by_cases hn : ∃ n, e = .timer n
  · obtain ⟨n, rfl⟩ := hn
    have hne : m ≠ n := fun hmn => he (hmn ▸ rfl)
    cases hdue : s.isDue (.timer n) with
    | false => rw [takeEvent_of_due hdue]
    | true =>
      rw [takeEvent_timer hdue, State.timer, stepTimer_timers]
      split
      · exact stepBank_of_free 8 n s.timers hne hfree
      · exact look_place_of_ne _ _ hne
  · rw [State.timer, takeEvent_timers fun n hn' => hn ⟨n, hn'⟩]
    rfl

/-- An event is held, or is not due. -/
def State.Settled (s : State) (held : List AdvanceEvent) (x : AdvanceEvent) : Prop :=
  s.isHeld held x = true ∨ s.isDue x = false

theorem advanceEvent_of_settled {s : State} {held : List AdvanceEvent} {x : AdvanceEvent} (h : s.Settled held x)
    (pins : BitVec 32) (chainOrder : List TimerId) : State.advanceEvent pins chainOrder held s x = s := by
  unfold State.advanceEvent
  split
  next => rfl
  next hheld => exact takeEvent_of_due (h.resolve_left hheld)

/-- An event of an advance settles itself. -/
theorem advanceEvent_settles (pins : BitVec 32) (chainOrder : List TimerId) (held : List AdvanceEvent) (s : State)
    (x : AdvanceEvent) : (State.advanceEvent pins chainOrder held s x).Settled held x := by
  unfold State.advanceEvent
  split
  next hheld => exact .inl hheld
  next => exact .inr (takeEvent_taken pins chainOrder s x)

/-- What has been settled stays so: an event neither makes another due, nor changes the count of a timer that is. -/
theorem State.Settled.takeEvent {s : State} {held : List AdvanceEvent} {x : AdvanceEvent} (h : s.Settled held x)
    (hroots : s.RootsDue) (pins : BitVec 32) (chainOrder : List TimerId) (e : AdvanceEvent) :
    (s.takeEvent pins chainOrder e).Settled held x := by
  cases hd : (s.takeEvent pins chainOrder e).isDue x with
  | false => exact .inr hd
  | true =>
    have hdue := takeEvent_due hd
    have hheld : s.isHeld held x = true := h.resolve_right (by simp [hdue])
    refine .inl ?_
    cases x with
    | timer m =>
      have hne : e ≠ .timer m := by
        rintro rfl
        rw [takeEvent_taken] at hd
        cases hd
      unfold State.isHeld at hheld ⊢
      dsimp only at hheld ⊢
      rw [takeEvent_timer_of_free (.inr (hroots m hdue)) hne]
      exact hheld
    | _ => exact hheld

/-- In the course of an advance the due timers stay roots, and what is settled stays settled. -/
theorem advanceEvent_keeps_settled {s : State} {held : List AdvanceEvent} {x : AdvanceEvent} (h : s.Settled held x)
    (hroots : s.RootsDue) (pins : BitVec 32) (chainOrder : List TimerId) (e : AdvanceEvent) :
    (State.advanceEvent pins chainOrder held s e).Settled held x := by
  rcases advanceEvent_cases pins chainOrder held s e with heq | ⟨-, -, heq⟩ <;> rw [heq]
  · exact h
  · exact h.takeEvent hroots pins chainOrder e

theorem advanceEvent_rootsDue {s : State} (hroots : s.RootsDue) (pins : BitVec 32) (chainOrder : List TimerId)
    (held : List AdvanceEvent) (e : AdvanceEvent) : (State.advanceEvent pins chainOrder held s e).RootsDue := by
  rcases advanceEvent_cases pins chainOrder held s e with heq | ⟨-, -, heq⟩ <;> rw [heq]
  · exact hroots
  · exact hroots.takeEvent pins chainOrder e

/-- A run of events settles each of them. -/
theorem foldl_settles {held : List AdvanceEvent} (pins : BitVec 32) (chainOrder : List TimerId) (l : List AdvanceEvent)
    {s : State} (hroots : s.RootsDue) :
    (l.foldl (State.advanceEvent pins chainOrder held) s).RootsDue
      ∧ ∀ x, x ∈ l ∨ s.Settled held x → (l.foldl (State.advanceEvent pins chainOrder held) s).Settled held x := by
  induction l generalizing s with
  | nil => exact ⟨hroots, fun x hx => hx.resolve_left List.not_mem_nil⟩
  | cons e l ih =>
    obtain ⟨hroots', hsettled⟩ := ih (advanceEvent_rootsDue hroots pins chainOrder held e)
    refine ⟨hroots', fun x hx => hsettled x ?_⟩
    rcases hx with hx | hx
    · rcases List.mem_cons.1 hx with rfl | hx
      · exact .inr (advanceEvent_settles pins chainOrder held s x)
      · exact .inl hx
    · exact .inr (advanceEvent_keeps_settled hx hroots pins chainOrder e)

/-- A run of settled events changes nothing. -/
theorem foldl_of_settled {held : List AdvanceEvent} (pins : BitVec 32) (chainOrder : List TimerId) (l : List AdvanceEvent)
    {s : State} (h : ∀ x, s.Settled held x) : l.foldl (State.advanceEvent pins chainOrder held) s = s := by
  induction l with
  | nil => rfl
  | cons e l ih => rw [List.foldl_cons, advanceEvent_of_settled (h e), ih]

/-- Beside an event itself, an advance holds the same whether or not it holds that event. -/
theorem isHeld_cons_of_ne {s : State} {held : List AdvanceEvent} {e x : AdvanceEvent} (hx : x ≠ e) :
    s.isHeld (e :: held) x = s.isHeld held x := by
  unfold State.isHeld
  rw [List.contains_cons, beq_eq_false_iff_ne.2 hx, Bool.false_or]

theorem isHeld_of_not_mem {held : List AdvanceEvent} {e : AdvanceEvent} (he : e ∉ held) (s : State) :
    s.isHeld held e = false := by
  unfold State.isHeld
  rw [List.contains_eq_mem, decide_eq_false he, Bool.false_and]

theorem advanceEvent_cons_of_ne {held : List AdvanceEvent} {e x : AdvanceEvent} (hx : x ≠ e) (pins : BitVec 32)
    (chainOrder : List TimerId) (s : State) :
    State.advanceEvent pins chainOrder (e :: held) s x = State.advanceEvent pins chainOrder held s x := by
  unfold State.advanceEvent
  rw [isHeld_cons_of_ne hx]

/-- An advance that takes every event but e, and then e, is over with that. -/
theorem foldl_last {held : List AdvanceEvent} {e : AdvanceEvent} {s : State} (hroots : s.RootsDue)
    (hsettled : ∀ x, x ≠ e → s.Settled held x) (pins : BitVec 32) (chainOrder : List TimerId) :
    allAdvanceEvents.foldl (State.advanceEvent pins chainOrder held) (State.advanceEvent pins chainOrder held s e) =
      State.advanceEvent pins chainOrder held s e := by
  refine foldl_of_settled pins chainOrder _ fun x => ?_
  by_cases hx : x = e
  · exact hx ▸ advanceEvent_settles pins chainOrder held s x
  · exact advanceEvent_keeps_settled (hsettled x hx) hroots pins chainOrder e

/-- Between a state and what an advance that does not hold event e makes of it by e, the advance that may hold e stands. -/
theorem awaits_advanceEvent {held : List AdvanceEvent} {e : AdvanceEvent} (he : ∀ n, e ≠ .line n) (hheld : e ∉ held)
    (pins : BitVec 32) (chainOrder : List TimerId) (s : State) :
    Awaits chainOrder e (State.advanceEvent pins chainOrder held s e)
      (State.advanceEvent pins chainOrder (e :: held) s e) := by
  have htaken : State.advanceEvent pins chainOrder held s e = s.takeEvent pins chainOrder e := by
    rw [State.advanceEvent, if_neg (by simp [isHeld_of_not_mem hheld])]
  rw [htaken]
  unfold State.advanceEvent
  split
  · exact awaits_takeEvent he pins chainOrder s
  · exact awaits_of_taken (takeEvent_taken pins chainOrder s e) chainOrder

/-- An advance in which event e comes last, with that event held and with it not: the second is the first with the
event taken. -/
theorem advanced_last {before held : List AdvanceEvent} {e : AdvanceEvent} (he : ∀ n, e ≠ .line n) (hheld : e ∉ held)
    (hbefore : e ∉ before) (hall : ∀ x, x ≠ e → x ∈ before) (pins : BitVec 32) (s : State) :
    Awaits (chainOrderOf (before ++ [e])) e (s.advanced pins (before ++ [e]) held)
      (s.advanced pins (before ++ [e]) (e :: held)) := by
  unfold State.advanced
  generalize chainOrderOf (before ++ [e]) = chainOrder
  have hsame (t : State) : before.foldl (State.advanceEvent pins chainOrder (e :: held)) t =
      before.foldl (State.advanceEvent pins chainOrder held) t :=
    List.foldl_ext _ _ t fun t x hx => advanceEvent_cons_of_ne (fun h : x = e => hbefore (h ▸ hx)) pins chainOrder t
  obtain ⟨hroots, hsettled⟩ := foldl_settles (held := held) pins chainOrder before
    (moveTimebase_rootsDue s.takeHeld)
  simp only [List.foldl_append, List.foldl_cons, List.foldl_nil, hsame]
  generalize before.foldl (State.advanceEvent pins chainOrder held) s.takeHeld.moveTimebase = t at hroots hsettled ⊢
  have hothers (x : AdvanceEvent) (hx : x ≠ e) : t.Settled held x := hsettled x (.inl (hall x hx))
  rw [foldl_last hroots hothers, foldl_last hroots fun x hx => by
    rw [State.Settled, isHeld_cons_of_ne hx]
    exact hothers x hx]
  exact awaits_advanceEvent he hheld pins chainOrder t

/-! ## An expiry that comes alone -/

/-- A sample that makes no recognised change, of a line sampled before, leaves what the expiries read (R4). -/
theorem sampleLine_alike {s : State} {n : LineId} {level : Bool} (hsampled : (s.line n).sampled = true)
    (hchanges : ¬ s.Changes n level) : Alike s (s.sampleLine n level) := by
  have hset (l : Line) (hl : l.recognised = (s.line n).recognised) : Alike s (s.setLine n l) := by
    refine ⟨⟨rfl, rfl, rfl, rfl, rfl, fun _ => rfl⟩, ⟨fun m => ?_, rfl⟩, rfl, rfl, rfl, fun _ => rfl⟩
    rw [State.setLine_line]
    split
    next hm => rw [hl, hm]
    next => rfl
  unfold State.sampleLine
  dsimp only
  rw [if_neg (by simp [hsampled])]
  split
  · exact hset _ rfl
  next hne =>
    rw [if_neg fun hfilter => hchanges ⟨hsampled, hne, hfilter⟩]
    exact hset _ rfl

/-- An expiry that an instant brings, or a step of a timer, is reached at that instant (R79, R109). -/
theorem reaches_of_isDue {s : State} {x : AdvanceEvent} (hx : ∀ n, x ≠ .line n)
    (hd : s.moveTimebase.isDue x = true) : s.Reaches (s.timebase + 1) x := by
  cases x with
  | line n => exact absurd rfl (hx n)
  | timer n =>
    obtain ⟨hrun, hdue⟩ := isDue_timer_iff.1 hd
    rw [moveTimebase_timer] at hrun hdue
    have hrun : (s.timer n).running = true := hrun
    rw [Timer.markStep] at hdue
    dsimp only at hdue
    simp only [Bool.and_eq_true, atBoundary, decide_eq_true_eq] at hdue
    refine ⟨hrun, ?_, hdue.2⟩
    cases hmode : (s.timer n).mode <;> simp [hmode] at hdue ⊢
  | service h k =>
    obtain ⟨e, he, hactive, hnow⟩ := isDue_service_iff.1 hd
    rw [moveTimebase_port] at he
    exact ⟨e, he, hactive, hnow⟩
  | collection i =>
    obtain ⟨u, o, c, hu, hround⟩ := isDue_collection_iff.1 hd
    refine ⟨u, hu, ?_⟩
    rw [Ticket.owed, Ticket.claimed, hround]
    rfl
  | affinity i =>
    obtain ⟨u, r, hu, hr, hnow⟩ := isDue_affinity_iff.1 hd
    exact ⟨u, hu, r, hr, hnow⟩

/-- In the course of an advance from s that brings expiry e alone, beside samples that change nothing. -/
structure State.Alone (s b : State) (pins : BitVec 32) (e : AdvanceEvent) : Prop where
  marks : Marks s.moveTimebase b
  sampling : s.Sampling b pins
  others (x : AdvanceEvent) : x ≠ e → (∀ n, x ≠ .line n) → b.isDue x = false

theorem State.Alone.takeEvent {s b : State} {pins : BitVec 32} {e : AdvanceEvent} (h : s.Alone b pins e)
    (chainOrder : List TimerId) (x : AdvanceEvent) : s.Alone (b.takeEvent pins chainOrder x) pins e where
  marks := h.marks.trans (takeEvent_marks pins chainOrder b x)
  sampling := h.sampling.takeEvent (fun src => (h.marks.config src).trans (moveTimebase_config s src)) chainOrder x
  others y hy hline := by
    have hnot := h.others y hy hline
    rw [← Bool.not_eq_true] at hnot ⊢
    exact fun hd => hnot (takeEvent_due hd)

/-- A sample that is due in such an advance changes nothing that the expiries read. -/
theorem State.Alone.sample {s b : State} {pins : BitVec 32} {e : AdvanceEvent} (h : s.Alone b pins e)
    (hlines : ∀ n : LineId, (s.line n).sampled = true ∧ ¬ s.Changes n (pins.getLsbD n.val)) {n : LineId}
    {a : State} (hline : a.line n = b.line n) (hconfig : ∀ src, a.config src = b.config src)
    (hdue : b.isDue (.line n) = true) : Alike a (a.sampleLine n (pins.getLsbD n.val)) := by
  have hb : b.line n = { s.line n with sampleDue := true } := (h.sampling n).trans (if_pos hdue)
  have hs (src : SourceId) : b.config src = s.config src := (h.marks.config src).trans (moveTimebase_config s src)
  refine sampleLine_alike (by rw [hline, hb]; exact (hlines n).1) ?_
  rw [State.Changes, hline, hb, hconfig, hs]
  exact (hlines n).2

section
variable {s a b : State} {pins : BitVec 32} {held : List AdvanceEvent} {e : AdvanceEvent} {chainOrder : List TimerId}
  (he : ∀ n, e ≠ .line n) (hb : s.Alone b pins e)
  (hlines : ∀ n : LineId, (s.line n).sampled = true ∧ ¬ s.Changes n (pins.getLsbD n.val))
include he hb hlines

/-- The samples of such an advance can come before its expiry or after it. -/
theorem Awaits.sample (h : Awaits chainOrder e a b) (n : LineId) :
    Awaits chainOrder e (a.takeEvent pins chainOrder (.line n)) (b.takeEvent pins chainOrder (.line n)) := by
  obtain ⟨hab, halike⟩ := id h
  have hline : a.line n = b.line n := by rw [State.line, hab]; rfl
  have hsame : a.isDue (.line n) = b.isDue (.line n) := by
    unfold State.isDue
    dsimp only
    rw [hline]
  cases hdue : b.isDue (.line n) with
  | false => rwa [takeEvent_of_due hdue, takeEvent_of_due (hsame.trans hdue)]
  | true =>
    have hconfig (src : SourceId) : a.config src = b.config src :=
      (halike.view.config src).trans ((takeEvent_marks 0 chainOrder b e).config src)
    rw [takeEvent_line hdue, takeEvent_line (hsame.trans hdue)]
    refine ⟨?_, ?_⟩
    · rw [sampleLine_lines, sampleLine_lines, hab, hline, hconfig]
    · have hbb := hb.sample hlines (a := b) rfl (fun _ => rfl) hdue
      exact ((hbb.symm.takeEvent he 0 0 chainOrder).trans halike).trans (hb.sample hlines hline hconfig hdue)

/-- An event of such an advance keeps the two runs of it together: that which takes the expiry and that which holds it. -/
theorem Awaits.advanceEvent (h : Awaits chainOrder e a b) (x : AdvanceEvent) :
    Awaits chainOrder e (State.advanceEvent pins chainOrder held a x)
      (State.advanceEvent pins chainOrder (e :: held) b x) := by
  have hdue {y : AdvanceEvent} (hy : ∀ n, y ≠ .line n) : a.isDue y = (b.takeEvent 0 chainOrder e).isDue y :=
    h.2.isDue hy
  by_cases hx : x = e
  · subst hx
    rw [advanceEvent_of_settled (.inr ((hdue he).trans (takeEvent_taken 0 chainOrder b x)))]
    unfold State.advanceEvent
    split
    · exact h
    · refine ⟨h.1.trans (takeEvent_lines he).symm, ?_⟩
      rw [takeEvent_of_due (takeEvent_taken pins chainOrder b x)]
      exact ((Alike.refl b).takeEvent he pins 0 chainOrder).trans h.2
  · by_cases hline : ∃ n, x = .line n
    · obtain ⟨n, rfl⟩ := hline
      have hnot (l : List AdvanceEvent) (t : State) : State.advanceEvent pins chainOrder l t (.line n) =
          t.takeEvent pins chainOrder (.line n) := if_neg (by simp [State.isHeld])
      rw [hnot, hnot]
      exact h.sample he hb hlines n
    · have hx' : ∀ n, x ≠ .line n := fun n hn => hline ⟨n, hn⟩
      have hbx : b.isDue x = false := hb.others x hx hx'
      have hax : a.isDue x = false := by
        rw [hdue hx', ← Bool.not_eq_true]
        rw [← Bool.not_eq_true] at hbx
        exact fun hd => hbx (takeEvent_due hd)
      rwa [advanceEvent_of_settled (.inr hax), advanceEvent_of_settled (.inr hbx)]

end

/-- An advance that brings event e alone, with that event held and with it not: the second is the first with the event
taken. -/
theorem advanced_alone {s : State} {pins : BitVec 32} {held : List AdvanceEvent} {e : AdvanceEvent}
    (he : ∀ n, e ≠ .line n) (hheld : e ∉ held) (hleft : s.NothingLeft)
    (hothers : ∀ x : AdvanceEvent, x ≠ e → ¬ s.Reaches (s.timebase + 1) x)
    (hlines : ∀ n : LineId, (s.line n).sampled = true ∧ ¬ s.Changes n (pins.getLsbD n.val))
    (order : List AdvanceEvent) :
    Awaits (chainOrderOf order) e (s.advanced pins order held) (s.advanced pins order (e :: held)) := by
  have hcourse (l : List AdvanceEvent) (a b : State) (hb : s.Alone b pins e)
      (hab : a = b ∨ Awaits (chainOrderOf order) e a b) :
      l.foldl (State.advanceEvent pins (chainOrderOf order) held) a =
          l.foldl (State.advanceEvent pins (chainOrderOf order) (e :: held)) b
        ∨ Awaits (chainOrderOf order) e (l.foldl (State.advanceEvent pins (chainOrderOf order) held) a)
          (l.foldl (State.advanceEvent pins (chainOrderOf order) (e :: held)) b) := by
    induction l generalizing a b with
    | nil => exact hab
    | cons x l ih =>
      refine ih _ _ ?_ ?_
      · rcases advanceEvent_cases pins (chainOrderOf order) (e :: held) b x with heq | ⟨-, -, heq⟩ <;> rw [heq]
        · exact hb
        · exact hb.takeEvent _ x
      · rcases hab with rfl | hab
        · by_cases hx : x = e
          · subst hx
            exact .inr (awaits_advanceEvent he hheld pins _ a)
          · exact .inl (advanceEvent_cons_of_ne hx pins _ a).symm
        · exact .inr (hab.advanceEvent he hb hlines x)
  have halone : s.Alone s.moveTimebase pins e := by
    refine ⟨.refl _, fun n => ?_, fun x hx hline => ?_⟩
    · rw [moveTimebase_line, if_pos rfl]
    · rw [← Bool.not_eq_true]
      exact fun hd => hothers x hx (reaches_of_isDue hline hd)
  unfold State.advanced
  rw [takeHeld_of_nothingLeft hleft]
  rcases hcourse (order ++ allAdvanceEvents) _ _ halone (.inl rfl) with heq | hawaits
  · rw [← heq]
    exact awaits_of_taken (advance_taken (isHeld_of_not_mem hheld) (by simp [mem_allAdvanceEvents]) _) _
  · exact hawaits

/-- Nothing is due after an advance that holds nothing (R106). -/
theorem advanced_nothingDue (s : State) (pins : BitVec 32) (order : List AdvanceEvent) (e : AdvanceEvent) :
    (s.advanced pins order []).recompute.isDue e = false := by
  have htaken : (s.advanced pins order []).isDue e = false :=
    advance_taken (fun t => by simp [State.isHeld]) (by simp [mem_allAdvanceEvents]) _
  by_cases he : ∃ n, e = .line n
  · obtain ⟨n, rfl⟩ := he
    exact htaken
  · rw [(alike_recompute _).isDue fun n hn => he ⟨n, hn⟩, htaken]

/-- Settles O48: every event settles itself, and an expiry commutes with what its advance brings beside it. -/
theorem advanceLeavesNothingDue : Obligations.AdvanceLeavesNothingDue := by
  refine ⟨fun pins order s => ⟨_, rfl, advanced_nothingDue s pins order⟩,
    fun pins before held s e c hc hheld hbefore hall => ?_,
    fun pins order held s e c hc hheld hleft hothers hlines => ?_⟩
  · have he := ne_line_of_rowTaking hc
    refine ⟨(s.advanced pins (before ++ [e]) (e :: held)).recompute, (s.advanced pins (before ++ [e]) held).recompute,
      rfl, ?_, rfl⟩
    rw [exec_rowTaking hc]
    exact congrArg Host.Outcome.next ((advanced_last he hheld hbefore hall pins s).row he)
  · have he := ne_line_of_rowTaking hc
    refine ⟨(s.advanced pins order (e :: held)).recompute, (s.advanced pins order held).recompute, rfl, ?_, rfl⟩
    rw [exec_rowTaking hc]
    exact congrArg Host.Outcome.next ((advanced_alone he hheld hleft hothers hlines order).row he)

end Sys2Proof.Machine
end

section
/-! SUPPORT. The steps of the timers at an advance (R109 to R111). -/

namespace Sys2Proof.Machine

/-! ## A timer through the events of an advance -/

/-- The step of a timer that is not chained, by its own event: with the gate high it steps, and with it low the step is
let go (R109). -/
theorem takeEvent_own_timer {s : State} {n : TimerId} (hdue : s.isDue (.timer n) = true)
    (hmode : (s.timer n).mode ≠ .chained) (pins : BitVec 32) (chainOrder : List TimerId) :
    (s.takeEvent pins chainOrder (.timer n)).timer n =
      if s.gateOpen (s.timer n) = true then (s.timer n).stepped else { s.timer n with stepDue := false } := by
  rw [takeEvent_timer hdue, State.timer, stepTimer_timers]
  split
  · exact (stepBank_root hmode).stepped n (steps_iff.2 (.inl rfl))
  · exact look_place_same _ _ _

theorem Timer.stepped_stepDue (t : Timer) (b : Bool) : ({ t with stepDue := b } : Timer).stepped = t.stepped := rfl

theorem stepped_stepDue_eq_false (t : Timer) : t.stepped.stepDue = false := by
  unfold Timer.stepped Timer.afterExpiry
  split
  · split <;> rfl
  · rfl

theorem advanceEvent_timer_of_free {s : State} {m : TimerId}
    (hfree : (s.timer m).running = false ∨ (s.timer m).mode ≠ .chained) {pins : BitVec 32} {chainOrder : List TimerId}
    {held : List AdvanceEvent} {e : AdvanceEvent} (he : e ≠ .timer m) :
    (State.advanceEvent pins chainOrder held s e).timer m = s.timer m := by
  unfold State.advanceEvent
  split
  · rfl
  · exact takeEvent_timer_of_free hfree he

/-- A timer that no step is due of, and that runs chained to none, stays. -/
theorem takeEvent_timer_of_idle {s : State} {m : TimerId}
    (hfree : (s.timer m).running = false ∨ (s.timer m).mode ≠ .chained) (hidle : (s.timer m).stepDue = false)
    (pins : BitVec 32) (chainOrder : List TimerId) (e : AdvanceEvent) :
    (s.takeEvent pins chainOrder e).timer m = s.timer m := by
  by_cases he : e = .timer m
  · rw [takeEvent_of_due (by rw [he, State.isDue, hidle, Bool.and_false])]
  · exact takeEvent_timer_of_free hfree he

theorem advanceEvent_timer_of_idle {s : State} {m : TimerId}
    (hfree : (s.timer m).running = false ∨ (s.timer m).mode ≠ .chained) (hidle : (s.timer m).stepDue = false)
    (pins : BitVec 32) (chainOrder : List TimerId) (held : List AdvanceEvent) (e : AdvanceEvent) :
    (State.advanceEvent pins chainOrder held s e).timer m = s.timer m := by
  unfold State.advanceEvent
  split
  · rfl
  · exact takeEvent_timer_of_idle hfree hidle pins chainOrder e

section
variable {x : Timer} {n : TimerId} (hfree : x.running = false ∨ x.mode ≠ .chained) (hidle : x.stepDue = false)
include hfree hidle

/-- An idle timer stays through a run of events. -/
theorem foldl_timer_of_idle (pins : BitVec 32) (chainOrder : List TimerId) (held l : List AdvanceEvent) {s : State}
    (hs : s.timer n = x) : (l.foldl (State.advanceEvent pins chainOrder held) s).timer n = x :=
  foldl_keeps (P := fun t => t.timer n = x) (fun t e ht => by
    rw [advanceEvent_timer_of_idle (ht ▸ hfree) (ht ▸ hidle), ht]) l s hs

/-- An idle timer stays as the held expiries that are left are taken. -/
theorem takeHeld_timer {s : State} (hs : s.timer n = x) : s.takeHeld.timer n = x :=
  foldl_keeps (P := fun t => t.timer n = x) (fun t e ht => by
    rw [takeEvent_timer_of_idle (ht ▸ hfree) (ht ▸ hidle), ht]) allExpiries s hs

end

/-- A timer after a due step, by its gate: it steps, or lets the step go (R109). -/
def Timer.byGate (x : Timer) (isOpen : Bool) : Timer := if isOpen = true then x.stepped else x

theorem Timer.byGate_mode (x : Timer) (isOpen : Bool) : (x.byGate isOpen).mode = x.mode := by
  unfold Timer.byGate Timer.stepped
  split
  · split
    · exact (afterExpiry_setup x.counted).1
    · rfl
  · rfl

theorem Timer.byGate_stepDue {x : Timer} (hidle : x.stepDue = false) (isOpen : Bool) :
    (x.byGate isOpen).stepDue = false := by
  unfold Timer.byGate
  split
  · exact stepped_stepDue_eq_false x
  · exact hidle

section
variable {x : Timer} {n : TimerId} (hrun : x.running = true) (hmode : x.mode ≠ .chained) (hidle : x.stepDue = false)
  {pins : BitVec 32} {chainOrder : List TimerId} {held : List AdvanceEvent}
  (hheld : ¬ (x.count = 1 ∧ .timer n ∈ held))
include hrun hmode hidle hheld

/-- A free timer whose step is due, and that its advance does not hold, takes its step at its event. -/
theorem advanceEvent_own_timer {s : State} (hs : s.timer n = { x with stepDue := true }) :
    (State.advanceEvent pins chainOrder held s (.timer n)).timer n = x.byGate (s.gateOpen x) := by
  have hnot : s.isHeld held (.timer n) = false := by
    rw [← Bool.not_eq_true, State.isHeld, hs]
    simpa [and_comm] using hheld
  have hdue : s.isDue (.timer n) = true := isDue_timer_iff.2 (by rw [hs]; exact ⟨hrun, rfl⟩)
  have hclosed : ({ x with stepDue := false } : Timer) = x := by
    cases x
    cases hidle
    rfl
  rw [State.advanceEvent, if_neg (by simp [hnot]), takeEvent_own_timer hdue (by rw [hs]; exact hmode), hs,
    Timer.stepped_stepDue]
  exact if_congr Iff.rfl rfl hclosed

/-- The step is taken by the first naming of its event; here P is kept by the events and decides the gate. -/
theorem foldl_timer_of_due {isOpen : Bool} {P : State → Prop}
    (hkeep : ∀ t e, P t → P (State.advanceEvent pins chainOrder held t e))
    (hgate : ∀ t, P t → t.gateOpen x = isOpen) {l : List AdvanceEvent} (hl : .timer n ∈ l) {s : State} (hP : P s)
    (hs : s.timer n = { x with stepDue := true }) :
    (l.foldl (State.advanceEvent pins chainOrder held) s).timer n = x.byGate isOpen := by
  induction l generalizing s with
  | nil => cases hl
  | cons e l ih =>
    by_cases he : e = .timer n
    · subst he
      refine foldl_timer_of_idle (.inr ?_) (Timer.byGate_stepDue hidle isOpen) pins chainOrder held l ?_
      · rw [Timer.byGate_mode]
        exact hmode
      · rw [advanceEvent_own_timer hrun hmode hidle hheld hs, hgate s hP]
    · refine ih ((List.mem_cons.1 hl).resolve_left (Ne.symm he)) (hkeep s e hP) ?_
      rw [advanceEvent_timer_of_free (.inr (by rw [hs]; exact hmode)) he, hs]

end

/-- A free timer whose step is due, and whose last step its advance holds, keeps it (log 7). -/
theorem foldl_timer_of_held {x : Timer} {n : TimerId} (hmode : x.mode ≠ .chained) (hlast : x.count = 1)
    {held : List AdvanceEvent} (hheld : .timer n ∈ held) (pins : BitVec 32) (chainOrder : List TimerId)
    (l : List AdvanceEvent) {s : State} (hs : s.timer n = x) :
    (l.foldl (State.advanceEvent pins chainOrder held) s).timer n = x := by
  refine foldl_keeps (P := fun t => t.timer n = x) (fun t e ht => ?_) l s hs
  by_cases he : e = .timer n
  · have hheld' : t.isHeld held e = true := by
      rw [he, State.isHeld, ht]
      simp [hheld, hlast]
    rw [advanceEvent_of_settled (.inl hheld'), ht]
  · rw [advanceEvent_timer_of_free (.inr (ht ▸ hmode)) he, ht]

/-! ## A running timer through an advance -/

/-- A line that has taken its sample stays. -/
theorem advanceEvent_line {t : State} {g : LineId} (hd : t.isDue (.line g) = false) (pins : BitVec 32)
    (chainOrder : List TimerId) (held : List AdvanceEvent) (e : AdvanceEvent) :
    (State.advanceEvent pins chainOrder held t e).line g = t.line g := by
  rcases advanceEvent_cases pins chainOrder held t e with heq | ⟨hdue, -, heq⟩ <;> rw [heq]
  by_cases he : ∃ m, e = .line m
  · obtain ⟨m, rfl⟩ := he
    rw [takeEvent_line hdue, sampleLine_line, if_neg]
    rintro rfl
    rw [hd] at hdue
    cases hdue
  · rw [State.line, takeEvent_lines fun m hm => he ⟨m, hm⟩]
    rfl

/-- What an order makes of the gate of a timer's step (R109, log 6). -/
def GateAt (order : List AdvanceEvent) (s t : State) (n : TimerId) (x : Timer) (isOpen : Bool) : Prop :=
  (x.gate = none → isOpen = true)
    ∧ ∀ g ∈ x.gate, (order = [] ∧ isOpen = (t.line g).recognised)
      ∨ (order.head? = some (.timer n) ∧ isOpen = (s.line g).recognised)
      ∨ (isOpen = (s.line g).recognised ∧ isOpen = (t.line g).recognised)

/-- A timer whose step falls due at an advance, and is not held, takes it with the gate as its order has it. -/
theorem advanced_timer_of_due {s : State} {x : Timer} {n : TimerId} (hrun : x.running = true)
    (hmode : x.mode ≠ .chained) (hidle : x.stepDue = false) {held : List AdvanceEvent}
    (hheld : ¬ (x.count = 1 ∧ .timer n ∈ held)) {pins : BitVec 32} {order : List AdvanceEvent} {isOpen : Bool}
    (hdue : s.takeHeld.moveTimebase.timer n = { x with stepDue := true })
    (hgate : GateAt order s (s.advanced pins order held) n x isOpen) :
    (s.advanced pins order held).timer n = x.byGate isOpen := by
  obtain ⟨hnone, hsome⟩ := hgate
  have hmem : .timer n ∈ order ++ allAdvanceEvents := by simp [mem_allAdvanceEvents]
  cases hg : x.gate with
  | none =>
    refine foldl_timer_of_due hrun hmode hidle hheld (P := fun _ => True) (fun _ _ _ => trivial) (fun t _ => ?_) hmem
      trivial hdue
    rw [State.gateOpen, hg, hnone hg]
  | some g =>
    have hopen (t : State) : t.gateOpen x = (t.line g).recognised := by rw [State.gateOpen, hg]
    rcases hsome g hg with ⟨rfl, hafter⟩ | ⟨hhead, hbefore⟩ | ⟨hbefore, hafter⟩
    · have hlines : allAdvanceEvents = (List.finRange 32).map .line ++ allExpiries := rfl
      unfold State.advanced at hafter ⊢
      rw [List.nil_append, hlines, List.foldl_append] at hafter ⊢
      generalize hs1 : ((List.finRange 32).map AdvanceEvent.line).foldl (State.advanceEvent pins (chainOrderOf []) held)
        s.takeHeld.moveTimebase = s1 at hafter ⊢
      have htimer : s1.timer n = { x with stepDue := true } := by
        rw [← hs1]
        refine foldl_keeps_mem (P := fun t => t.timer n = { x with stepDue := true }) (fun t e he ht => ?_) _ hdue
        obtain ⟨m, -, rfl⟩ := List.mem_map.1 he
        rw [advanceEvent_timer_of_free (.inr (by rw [ht]; exact hmode)) (by simp), ht]
      have hsampled : s1.isDue (.line g) = false := by
        rw [← hs1]
        exact advance_taken (fun t => by simp [State.isHeld]) (by simp) _
      have hkeep (t : State) (e : AdvanceEvent) (ht : t.isDue (.line g) = false ∧ t.line g = s1.line g) :
          (State.advanceEvent pins (chainOrderOf []) held t e).isDue (.line g) = false
            ∧ (State.advanceEvent pins (chainOrderOf []) held t e).line g = s1.line g := by
        have hline := advanceEvent_line ht.1 pins (chainOrderOf []) held e
        refine ⟨?_, hline.trans ht.2⟩
        have hd := ht.1
        unfold State.isDue at hd ⊢
        dsimp only at hd ⊢
        rw [hline, hd]
      have hlast := foldl_keeps hkeep allExpiries s1 ⟨hsampled, rfl⟩
      refine foldl_timer_of_due hrun hmode hidle hheld hkeep (fun t ht => ?_) (by simp [allExpiries]) ⟨hsampled, rfl⟩
        htimer
      rw [hopen, ht.2, hafter, hlast.2]
    · obtain ⟨rest, rfl⟩ : ∃ rest, order = .timer n :: rest := by
        cases order with
        | nil => cases hhead
        | cons e rest => exact ⟨rest, by rw [Option.some.inj hhead]⟩
      have hline : (s.takeHeld.moveTimebase.line g).recognised = (s.line g).recognised := by
        rw [moveTimebase_line, State.line, takeHeld_lines]
        rfl
      unfold State.advanced
      rw [List.cons_append, List.foldl_cons]
      refine foldl_timer_of_idle (.inr ?_) (Timer.byGate_stepDue hidle isOpen) _ _ _ _ ?_
      · rw [Timer.byGate_mode]
        exact hmode
      · rw [advanceEvent_own_timer hrun hmode hidle hheld hdue, hopen, hline, hbefore]
    · refine foldl_timer_of_due hrun hmode hidle hheld
        (P := fun t => Marks s.takeHeld.moveTimebase t ∧ s.Sampling t pins)
        (fun t e ht => sampling_keeps ht _ held e) (fun t ht => ?_) hmem (moved_sampling s pins) hdue
      rw [hopen, ht.2 g]
      split
      · exact hbefore.symm
      · rw [← advanced_line s pins order held g, hafter]

/-! ## A chained timer through an advance -/

/-- Two timers that are not chained have no timer in common below them. -/
theorem stepsUnder_root_unique {ts : Vector Timer 8} {r r' m : TimerId} (hr : (look ts r).mode ≠ .chained)
    (hr' : (look ts r').mode ≠ .chained) {k k' : Nat} (h : StepsUnder ts r k m) (h' : StepsUnder ts r' k' m) :
    r = r' := by
  induction k generalizing m k' with
  | zero =>
    obtain rfl : m = r := h
    cases k' with
    | zero => exact h'
    | succ k' => exact absurd h'.1.2.1 hr
  | succ k ih =>
    cases k' with
    | zero =>
      obtain rfl : m = r' := h'
      exact absurd h.1.2.1 hr'
    | succ k' => exact ih h.2 h'.2

/-- What steps with a timer reads which timers run, the modes, the chains and the counts. -/
theorem stepsUnder_congr {xs ts : Vector Timer 8} (h : ∀ m, (look xs m).running = (look ts m).running
      ∧ (look xs m).mode = (look ts m).mode ∧ (look xs m).chain = (look ts m).chain
      ∧ (look xs m).count = (look ts m).count) {n m : TimerId} {k : Nat} (hk : StepsUnder xs n k m) :
    StepsUnder ts n k m := by
  induction k generalizing m with
  | zero => exact hk
  | succ k ih =>
    obtain ⟨hrun, hmode, hchain, -⟩ := h m
    have hcount := (h (look ts m).chain).2.2.2
    rw [StepsUnder, hrun, hmode, hchain, hcount] at hk
    exact ⟨hk.1, ih hk.2⟩

/-- A timer that does not step with a root is left by the root's step. -/
theorem takeEvent_timer_of_not_steps {t : State} {r x : TimerId} (hroots : t.RootsDue)
    (hx : ¬ Steps t.timers r x) (pins : BitVec 32) (chainOrder : List TimerId) :
    (t.takeEvent pins chainOrder (.timer r)).timer x = t.timer x := by
  cases hdue : t.isDue (.timer r) with
  | false => rw [takeEvent_of_due hdue]
  | true =>
    rw [takeEvent_timer hdue, State.timer, stepTimer_timers]
    split
    · exact (stepBank_root (hroots r hdue)).others x hx
    · exact look_place_of_ne _ _ fun h => hx (steps_iff.2 (.inl h))

/-- In the course of an advance, whose timebase has moved at state m, the chained timers run as they did, and what steps
with a timer that is still due stands as it did. -/
structure State.Unstepped (m t : State) : Prop where
  roots : t.RootsDue
  due (r : TimerId) : t.isDue (.timer r) = true → m.isDue (.timer r) = true
  setup : SameSetup t.timers m.timers
  chained (x : TimerId) : (m.timer x).mode = .chained → (t.timer x).running = (m.timer x).running
  untouched (r x : TimerId) : t.isDue (.timer r) = true → Steps m.timers r x → t.timer x = m.timer x

section
variable {m t : State} (h : m.Unstepped t)
include h

theorem State.Unstepped.stepsUnder {r x : TimerId} {k : Nat} (hr : t.isDue (.timer r) = true)
    (hk : StepsUnder t.timers r k x) : StepsUnder m.timers r k x := by
  induction k generalizing x with
  | zero => exact hk
  | succ k ih =>
    obtain ⟨hmode, -, -, -, hchain⟩ := h.setup x
    obtain ⟨⟨hrun, hmodet, hlast⟩, hparent⟩ := hk
    rw [hmode] at hmodet
    rw [hchain] at hparent hlast
    have hunder := ih hparent
    have hsame : look t.timers (look m.timers x).chain = look m.timers (look m.timers x).chain :=
      h.untouched r _ hr ⟨k, hunder⟩
    rw [hsame] at hlast
    exact ⟨⟨(h.chained x hmodet).symm.trans hrun, hmodet, hlast⟩, hunder⟩

theorem State.Unstepped.takeEvent (pins : BitVec 32) (chainOrder : List TimerId) (e : AdvanceEvent) :
    m.Unstepped (t.takeEvent pins chainOrder e) where
  roots := h.roots.takeEvent pins chainOrder e
  due r hr := h.due r (takeEvent_due hr)
  setup := (takeEvent_setup pins chainOrder t e).trans h.setup
  chained x hx := by
    by_cases he : ∃ r, e = .timer r ∧ t.isDue (.timer r) = true ∧ Steps t.timers r x
    · obtain ⟨r, rfl, hdue, hsteps⟩ := he
      have hxt : (t.timer x).mode = .chained := (h.setup x).1.trans hx
      have hrx : x ≠ r := fun hxr => h.roots r hdue (hxr ▸ hxt)
      rw [← h.chained x hx, takeEvent_timer hdue, State.timer, stepTimer_timers]
      split
      · rw [(stepBank_root (h.roots r hdue)).stepped x hsteps]
        exact (Timer.stepped_chained hxt).1
      · rw [look_place_of_ne _ _ hrx]
        rfl
    · have hsame : (t.takeEvent pins chainOrder e).timer x = t.timer x := by
        by_cases htimer : ∃ r, e = .timer r
        · obtain ⟨r, rfl⟩ := htimer
          cases hdue : t.isDue (.timer r) with
          | false => rw [takeEvent_of_due hdue]
          | true => exact takeEvent_timer_of_not_steps h.roots (fun hs => he ⟨r, rfl, hdue, hs⟩) pins chainOrder
        · rw [State.timer, takeEvent_timers fun r hr => htimer ⟨r, hr⟩]
          rfl
      rw [hsame]
      exact h.chained x hx
  untouched r x hr hsteps := by
    have hdue := takeEvent_due hr
    rw [← h.untouched r x hdue hsteps]
    by_cases htimer : ∃ r', e = .timer r'
    · obtain ⟨r', rfl⟩ := htimer
      cases hdue' : t.isDue (.timer r') with
      | false => rw [takeEvent_of_due hdue']
      | true =>
        refine takeEvent_timer_of_not_steps h.roots (fun ⟨k', hk'⟩ => ?_) pins chainOrder
        obtain ⟨k, hk⟩ := hsteps
        have hroot {y : TimerId} (hy : t.isDue (.timer y) = true) : (look m.timers y).mode ≠ .chained :=
          (h.setup y).1 ▸ h.roots y hy
        obtain rfl := stepsUnder_root_unique (hroot hdue) (hroot hdue') hk (h.stepsUnder hdue' hk')
        rw [takeEvent_taken] at hr
        cases hr
    · rw [State.timer, takeEvent_timers fun r' hr' => htimer ⟨r', hr'⟩]
      rfl

end

/-- With no step left over, the expiries that are left before an advance are no steps. -/
theorem takeHeld_timers {s : State} (h : ∀ n, (s.timer n).stepDue = false) : s.takeHeld.timers = s.timers := by
  refine foldl_keeps (P := fun t => t.timers = s.timers) (fun t e ht => ?_) allExpiries s rfl
  by_cases he : ∃ n, e = .timer n
  · obtain ⟨n, rfl⟩ := he
    rw [takeEvent_of_due, ht]
    rw [State.isDue, State.timer, ht]
    exact (congrArg _ (h n)).trans (Bool.and_false _)
  · rw [takeEvent_timers fun n hn => he ⟨n, hn⟩, ht]

/-- A timer as the timebase moves: its step falls due at the boundaries of its prescale, if it runs by itself (R109). -/
theorem moved_timer (s : State) (n : TimerId) :
    s.takeHeld.moveTimebase.timer n = (s.takeHeld.timer n).markStep (s.timebase + 1) := by
  rw [moveTimebase_timer, (takeHeld_marks s).fields.1]

theorem markStep_of_no_step {x : Timer} (h : x.running = false ∨ x.mode = .off ∨ x.mode = .chained)
    (hidle : x.stepDue = false) (now : Time) : x.markStep now = x := by
  cases x
  cases hidle
  rcases h with h | h | h <;> cases h <;> simp [Timer.markStep]

theorem markStep_of_runs {x : Timer} (hrun : x.running = true) (hmode : x.mode = .periodic ∨ x.mode = .oneshot)
    (now : Time) : x.markStep now = { x with stepDue := atBoundary now x.prescale } := by
  cases x
  cases hrun
  rcases hmode with h | h <;> cases h <;> simp [Timer.markStep]

/-- A timer whose step does not fall due, and a chained one whose chain does not expire, stay through an advance. -/
theorem advanced_timer_of_still {s : State} {n : TimerId} (hidle : ∀ m, (s.timer m).stepDue = false)
    (hstill : (s.timer n).running = false ∨ (s.timer n).mode = .off
      ∨ ((s.timer n).mode = .chained ∧ ∀ m : TimerId, s.expiresWith m (s.timer n).chain = true →
          s.Reaches (s.timebase + 1) (.timer m) → (s.timer m).count ≠ 1))
    (pins : BitVec 32) (order held : List AdvanceEvent) :
    (s.advanced pins order held).timer n = s.timer n := by
  have htimer (m : TimerId) : s.takeHeld.timer m = s.timer m := by rw [State.timer, takeHeld_timers hidle]; rfl
  have hmoved : s.takeHeld.moveTimebase.timer n = s.timer n := by
    rw [moved_timer, htimer]
    exact markStep_of_no_step (hstill.imp_right (Or.imp_right And.left)) (hidle n) _
  by_cases hfree : (s.timer n).running = false ∨ (s.timer n).mode ≠ .chained
  · exact foldl_timer_of_idle hfree (hidle n) pins _ held _ hmoved
  · obtain ⟨hrun, hchained⟩ := not_or.1 hfree
    have hchained := not_not.1 hchained
    have hnone := ((hstill.resolve_left hrun).resolve_left fun hoff => by rw [hchained] at hoff; cases hoff).2
    have hsame (m : TimerId) : (s.takeHeld.moveTimebase.timer m).running = (s.timer m).running
        ∧ (s.takeHeld.moveTimebase.timer m).mode = (s.timer m).mode
        ∧ (s.takeHeld.moveTimebase.timer m).chain = (s.timer m).chain
        ∧ (s.takeHeld.moveTimebase.timer m).count = (s.timer m).count := by
      rw [moved_timer, htimer]
      exact ⟨rfl, rfl, rfl, rfl⟩
    have hkeep : s.takeHeld.moveTimebase.Unstepped (s.advanced pins order held)
        ∧ (s.advanced pins order held).timer n = s.timer n := by
      refine foldl_keeps (P := fun t => s.takeHeld.moveTimebase.Unstepped t ∧ t.timer n = s.timer n)
        (fun t e ⟨ht, hn⟩ => ?_) _ _
        ⟨⟨moveTimebase_rootsDue _, fun _ => id, .refl _, fun _ _ => rfl, fun _ _ _ _ => rfl⟩, hmoved⟩
      rcases advanceEvent_cases pins (chainOrderOf order) held t e with heq | ⟨hdue, -, heq⟩ <;> rw [heq]
      · exact ⟨ht, hn⟩
      refine ⟨ht.takeEvent pins _ e, ?_⟩
      by_cases he : ∃ r, e = .timer r
      · obtain ⟨r, rfl⟩ := he
        rw [takeEvent_timer_of_not_steps ht.roots, hn]
        rintro ⟨k, hk⟩
        have hroot : (s.timer r).mode ≠ .chained := by
          have := ht.roots r hdue
          rwa [State.timer, (ht.setup r).1, ← State.timer, (hsame r).2.1] at this
        have hunder := stepsUnder_congr hsame (ht.stepsUnder hdue hk)
        cases k with
        | zero =>
          obtain rfl : n = r := hunder
          exact hroot hchained
        | succ k =>
          have hreaches : s.takeHeld.Reaches (s.takeHeld.timebase + 1) (.timer r) :=
            reaches_of_isDue (by simp) (ht.due r hdue)
          rw [(takeHeld_marks s).fields.1, State.Reaches, htimer] at hreaches
          have hlast : (s.timer r).count = 1 := hunder.to_child.1
          exact hnone r ((expiresWith_iff hroot hlast).2 ⟨⟨k, hunder.2⟩, hunder.1.2.2⟩) hreaches hlast
      · rw [State.timer, takeEvent_timers fun r hr => he ⟨r, hr⟩]
        exact hn
    exact hkeep.2

/-- A step that a timer takes, written out (R109, R111). -/
theorem Timer.byGate_eq {x : Timer} (hmode : x.mode = .periodic ∨ x.mode = .oneshot) (hidle : x.stepDue = false)
    (isOpen : Bool) :
    x.byGate isOpen =
      if isOpen = false then x
      else if x.count ≠ 1 then { x with count := x.count - 1 }
      else if x.mode = .periodic then { x with count := x.reload }
      else { x with count := 0, running := false, owner := none } := by
  cases isOpen with
  | false => rfl
  | true =>
    rw [Timer.byGate, if_pos rfl, if_neg (by decide)]
    by_cases hlast : x.count = 1
    · rw [Timer.stepped_of_last hmode hlast, if_neg (not_not.2 hlast)]
      cases x
      cases hidle
      rfl
    · rw [Timer.stepped, if_neg hlast, if_pos hlast]
      cases x
      cases hidle
      rfl

/-- Settles O47: the step of a timer falls due as the timebase moves onto a boundary, and its own event takes it. -/
theorem advanceStepsTimers : Obligations.AdvanceStepsTimers := by
  refine ⟨fun p => by cases p <;> rfl, fun pins order held s n hidle hstill => ?_,
    fun pins order held s n isOpen hrun hmode hidle => ?_⟩
  · refine ⟨(s.advanced pins order held).recompute, rfl, ?_⟩
    rw [State.timer, recompute_timers]
    exact advanced_timer_of_still hidle hstill pins order held
  · refine ⟨(s.advanced pins order held).recompute, rfl, fun hnone hgate => ?_⟩
    have hfree : (s.timer n).mode ≠ .chained := by rcases hmode with h | h <;> rw [h] <;> decide
    have hnow : (s.timebase + 1).toNat = (s.timebase.toNat + 1) % 2 ^ 48 := by
      rw [BitVec.toNat_add]
      rfl
    have hmoved : s.takeHeld.moveTimebase.timer n =
        { s.timer n with stepDue := atBoundary (s.timebase + 1) (s.timer n).prescale } := by
      rw [moved_timer, takeHeld_timer (.inr hfree) hidle rfl, markStep_of_runs hrun hmode]
    rw [State.timer, recompute_timers]
    by_cases hboundary : (s.timebase.toNat + 1) % 2 ^ 48 % (s.timer n).prescale.steps = 0
    · rw [if_neg (not_not.2 hboundary)]
      have hdue : s.takeHeld.moveTimebase.timer n = { s.timer n with stepDue := true } := by
        rw [hmoved, atBoundary, hnow, decide_eq_true hboundary]
      by_cases hheld : (s.timer n).count = 1 ∧ .timer n ∈ held
      · rw [if_pos hheld]
        exact foldl_timer_of_held (x := { s.timer n with stepDue := true }) hfree hheld.1 hheld.2 pins _ _ hdue
      · rw [if_neg hheld, ← Timer.byGate_eq hmode hidle]
        exact advanced_timer_of_due hrun hfree hidle hheld hdue ⟨hnone, hgate⟩
    · rw [if_pos hboundary]
      refine foldl_timer_of_idle (.inr hfree) hidle pins _ held _ ?_
      rw [hmoved, atBoundary, hnow, decide_eq_false hboundary, ← hidle]

end Sys2Proof.Machine
end

section
/-! SUPPORT. One ticket through the release of a host: a ticket of another host is spared, and one that the host holds is
returned by its own entry and by nothing else (R83, R89 to R91). -/

namespace Sys2Proof.Machine

/-! ## The operations on other slots -/

/-- The leaving of a round touches no ticket in service in another slot. -/
theorem leaveRound_undisturbedAt (s : State) (h : Port) {i j : SlotId} (hj : j ≠ i) :
    UndisturbedAt s (s.leaveRound h i) j := by
  rcases leaveRound_cases s h i with ⟨-, heq⟩ | ⟨u, o, c, x, -, -, ⟨-, heq⟩ | ⟨-, heq⟩⟩ <;> rw [heq]
  · exact .inl rfl
  · exact (settle_vacates s i u.source).others j hj
  · exact setTicket_undisturbedAt s _ hj

/-- The release of an entry touches no ticket in service in another slot (R89). -/
theorem releaseEntry_undisturbedAt (s : State) (h : Port) (e : Entry) {j : SlotId} (hj : j ≠ e.handle.slot) :
    UndisturbedAt s (s.releaseEntry h e) j := by
  unfold State.releaseEntry
  split
  · exact .inl rfl
  · split
    · exact .inl rfl
    next u hu =>
      split
      · exact (returnTicket_vacates (ticketAt_of_named hu).1).others j hj
      · exact leaveRound_undisturbedAt s h hj
      · exact .inl rfl

theorem setTicket_generation (s : State) (i j : SlotId) (u : Ticket) :
    ((s.setTicket i u).slotAt j).generation = (s.slotAt j).generation := by
  rw [State.setTicket_slotAt]
  split
  next hj => rw [hj]
  next => rfl

theorem createTicket_generation (s : State) (i j : SlotId) (src : SourceId) (c : Nat) (st : Time)
    (p : Option (BitVec 16)) : ((s.createTicket i src c st p).slotAt j).generation = (s.slotAt j).generation :=
  setTicket_generation s i j _

/-- An occurrence frees no slot (R9). -/
theorem occurrence_generation (s : State) (src : SourceId) (p : BitVec 16) (j : SlotId) :
    ((s.occurrence src p).slotAt j).generation = (s.slotAt j).generation := by
  unfold State.occurrence
  split
  · rfl
  · split
    · exact createTicket_generation ..
    · rfl
  · unfold State.coalesce
    split
    · rfl
    · exact setTicket_generation ..
  · rfl
  · exact createTicket_generation ..
  · rfl

theorem settle_generation (s : State) (src : SourceId) {i j : SlotId} (hj : j ≠ i) :
    ((s.settle i src).slotAt j).generation = (s.slotAt j).generation := by
  have hfree := congrArg Slot.generation (freeTicket_slotAt_of_ne s hj)
  unfold State.settle State.rearm
  split
  · exact (occurrence_generation ..).trans hfree
  · exact hfree

theorem leaveRound_generation (s : State) (h : Port) {i j : SlotId} (hj : j ≠ i) :
    ((s.leaveRound h i).slotAt j).generation = (s.slotAt j).generation := by
  rcases leaveRound_cases s h i with ⟨-, heq⟩ | ⟨u, o, c, x, -, -, ⟨-, heq⟩ | ⟨-, heq⟩⟩ <;> rw [heq]
  · exact settle_generation s u.source hj
  · exact setTicket_generation s i j _

theorem returnTicket_generation (s : State) {i j : SlotId} (hj : j ≠ i) :
    ((s.returnTicket i).slotAt j).generation = (s.slotAt j).generation := by
  have hfree (t : State) : ((t.freeTicket i).slotAt j).generation = (t.slotAt j).generation :=
    congrArg Slot.generation (freeTicket_slotAt_of_ne t hj)
  unfold State.returnTicket
  split
  · rfl
  · split
    · exact hfree s
    · split
      · unfold State.mergeInto
        split
        · exact (hfree _).trans (setTicket_generation s _ j _)
        · rfl
      · split
        · exact setTicket_generation s i j _
        · exact setTicket_generation s i j _

/-- The release of an entry frees no other slot (R89). -/
theorem releaseEntry_generation (s : State) (h : Port) (e : Entry) {j : SlotId} (hj : j ≠ e.handle.slot) :
    ((s.releaseEntry h e).slotAt j).generation = (s.slotAt j).generation := by
  unfold State.releaseEntry
  split
  · rfl
  · split
    · rfl
    · split
      · exact returnTicket_generation s hj
      · exact leaveRound_generation s h hj
      · rfl

/-! ## A ticket that the release keeps -/

/-- Slot i holds ticket w, with nothing deferred, and no other ticket of its source, WAITING or in the hand of host g,
can merge with it. -/
structure State.Keeps (x : State) (i : SlotId) (gen : Fin 16) (w : Ticket) (g : Port) : Prop where
  slot : x.slotAt i = { generation := gen, ticket := some w }
  nothing : x.NothingDeferred
  alone : SourceId.posted w.source = true ∨ ∀ j, j ≠ i → ∀ v, x.ticketAt j = some v → v.source = w.source →
    v.waits = false ∧ v.standing ≠ .held g

section
variable {x : State} {i j : SlotId} {gen : Fin 16} {w : Ticket} {g : Port} (h : x.Keeps i gen w g)
include h

theorem State.Keeps.ticketAt : x.ticketAt i = some w := by rw [State.ticketAt, h.slot]

/-- A change that leaves the slot, and brings the source no ticket that could merge, keeps the ticket. -/
theorem State.Keeps.of_slots {y : State} (hslot : y.slotAt i = x.slotAt i) (hn : y.NothingDeferred)
    (hothers : ∀ j, j ≠ i → ∀ v, y.ticketAt j = some v → v.source = w.source → SourceId.posted w.source = false →
      (v.waits = false ∧ v.standing ≠ .held g) ∨ x.ticketAt j = some v) : y.Keeps i gen w g where
  slot := hslot.trans h.slot
  nothing := hn
  alone := by
    cases hp : SourceId.posted w.source with
    | true => exact .inl rfl
    | false =>
      refine .inr fun j hj v hv hsource => (hothers j hj v hv hsource hp).elim id fun hx => ?_
      exact (h.alone.resolve_left (by simp [hp])) j hj v hx hsource

theorem State.Keeps.congr {y : State} (hpool : y.pool = x.pool) : y.Keeps i gen w g := by
  have hslot (j : SlotId) : y.slotAt j = x.slotAt j := by rw [State.slotAt, hpool]; rfl
  refine h.of_slots (hslot i) (fun src => ?_) fun j _ v hv _ _ => .inr ?_
  · rw [State.deferralOf, hpool]
    exact h.nothing src
  · rwa [State.ticketAt, hslot] at hv

/-- A ticket written in another slot that is of another source, or in service with other hosts, keeps the ticket. -/
theorem State.Keeps.setTicket {v : Ticket} (hj : j ≠ i)
    (hv : v.source = w.source → SourceId.posted w.source = false → v.waits = false ∧ v.standing ≠ .held g) :
    (x.setTicket j v).Keeps i gen w g := by
  refine h.of_slots ?_ h.nothing fun k _ y hy hsource hp => ?_
  · rw [State.setTicket_slotAt, if_neg hj.symm]
  · rw [State.setTicket_ticketAt] at hy
    split at hy
    next => obtain rfl := Option.some.inj hy; exact .inl (hv hsource hp)
    next => exact .inr hy

theorem State.Keeps.clearSlot (hj : j ≠ i) : (x.clearSlot j).Keeps i gen w g := by
  refine h.of_slots ?_ (fun src => h.nothing src) fun k _ y hy _ _ => .inr ?_
  · rw [clearSlot_slotAt, if_neg hj.symm]
  · rw [State.ticketAt, clearSlot_slotAt] at hy
    split at hy
    next => cases hy
    next => exact hy

theorem State.Keeps.freeTicket (hj : j ≠ i) : (x.freeTicket j).Keeps i gen w g := by
  rcases freeTicket_cases x j with ⟨-, heq⟩ | ⟨-, -, heq⟩ | ⟨src, d, -, -, hd, -⟩
  · rw [heq]; exact h
  · rw [heq]; exact h.clearSlot hj
  · rw [h.nothing src] at hd
    cases hd

/-- The source of a live ticket has none of it counted as FREE. -/
theorem State.Keeps.liveCount_ne_zero : x.liveCount w.source ≠ 0 := fun hzero =>
  List.countP_eq_zero.1 hzero i (List.mem_finRange i) (holdsSource_iff.2 ⟨w, h.ticketAt, rfl⟩)

/-- A re-arm, with a slot free, makes a ticket of another source: that of the kept ticket has one (R73). -/
theorem State.Keeps.rearm (hfree : ∃ k, x.ticketAt k = none) (src : SourceId) : (x.rearm src).Keeps i gen w g := by
  unfold State.rearm
  split
  swap
  · exact h
  next hcond =>
    have hlive : x.liveCount src = 0 := by simpa using (Bool.and_eq_true_iff.1 hcond).2
    have hsource : src ≠ w.source := fun hsrc => h.liveCount_ne_zero (hsrc ▸ hlive)
    have hcreate (k : SlotId) (p : Option (BitVec 16)) (hk : x.lowestFree = some k) :
        (x.createTicket k src 1 x.timebase p).Keeps i gen w g := by
      have hki : k ≠ i := by
        rintro rfl
        have hnone := (lowestFree_eq_some.1 hk).1
        rw [h.ticketAt] at hnone
        cases hnone
      exact (h.setTicket hki (v := x.newTicket src 1 x.timebase p) fun hs => absurd hs hsource).of_slots rfl
        (fun src' => h.nothing src') fun _ _ _ hv _ _ => .inr hv
    rcases occurrence_cases x src 0 with ⟨-, heq⟩ | ⟨-, -, ⟨k, hk, heq⟩ | ⟨-, heq⟩⟩
      | ⟨-, -, ⟨k, hk, -⟩ | ⟨-, ⟨d, hd, -⟩ | ⟨-, ⟨k, hk, heq⟩ | ⟨hnone, -⟩⟩⟩⟩
    · rw [heq]; exact h
    · rw [heq]; exact hcreate k _ hk
    · rw [heq]; exact h
    · rw [waitingTicket_of_liveCount hlive] at hk
      cases hk
    · rw [h.nothing src] at hd
      cases hd
    · rw [heq]; exact hcreate k _ hk
    · obtain ⟨k, hk⟩ := hfree
      have hsome := lowestFree_eq_none.1 hnone k
      rw [hk] at hsome
      cases hsome

theorem State.Keeps.settle (hj : j ≠ i) (hlive : (x.ticketAt j).isSome = true) (src : SourceId) :
    (x.settle j src).Keeps i gen w g := by
  refine (h.freeTicket hj).rearm ⟨j, ?_⟩ src
  rw [freeTicket_of_nothingDeferred h.nothing hlive, State.ticketAt, clearSlot_slotAt, if_pos rfl]

/-- The leaving of a round keeps every ticket but the round's. -/
theorem State.Keeps.leaveRound (hj : j ≠ i) : (x.leaveRound g j).Keeps i gen w g := by
  rcases leaveRound_cases x g j with ⟨-, heq⟩ | ⟨u, o, c, e, hu, -, ⟨-, heq⟩ | ⟨-, heq⟩⟩ <;> rw [heq]
  · exact h
  · exact h.settle hj (by rw [hu]; rfl) u.source
  · exact h.setTicket hj fun _ _ => ⟨rfl, nofun⟩

/-- The return of another ticket in the hand of host g keeps the ticket: the other is of another source, or neither
merges. -/
theorem State.Keeps.returnTicket (hj : j ≠ i) {v : Ticket} (hv : x.ticketAt j = some v) (hheld : v.standing = .held g) :
    (x.returnTicket j).Keeps i gen w g := by
  have hsource (hp : SourceId.posted w.source = false) : v.source ≠ w.source := fun hs =>
    ((h.alone.resolve_left (by simp [hp])) j hj v hv hs).2 hheld
  have hwaits (n : Nat) : (x.setTicket j { v with standing := .waiting, count := n }).Keeps i gen w g :=
    h.setTicket hj fun hs hp => absurd hs (hsource hp)
  rcases returnTicket_cases hv with ⟨-, heq⟩ | ⟨-, ⟨k, hk, heq⟩ | ⟨-, ⟨d, hd, -⟩ | ⟨-, heq⟩⟩⟩
  · rw [heq]; exact h.freeTicket hj
  · obtain ⟨m, hm, hms, hmw⟩ := ticket_of_waitingTicket (waitingTicket_of_mergeTarget hk)
    have hp : SourceId.posted v.source = false := by
      unfold State.mergeTarget at hk
      split at hk
      · cases hk
      next hp => simpa using hp
    have hne : v.source ≠ w.source := fun hs => hsource (hs ▸ hp) hs
    have hki : k ≠ i := by
      rintro rfl
      rw [h.ticketAt] at hm
      obtain rfl := Option.some.inj hm
      exact hne hms.symm
    rw [heq, mergeInto_eq hv hm]
    have hmerged := h.setTicket hki (v := mergedTicket v m (x.olderThan j k)) fun hs => absurd (hms.symm.trans hs) hne
    exact (hmerged.of_slots (y := (x.setTicket k (mergedTicket v m (x.olderThan j k))).setOrder
      (mergedOrder x.pool.order j k (x.olderThan j k))) rfl (fun src => h.nothing src)
      fun _ _ _ hv _ _ => .inr hv).freeTicket hj
  · rw [h.nothing v.source] at hd
    cases hd
  · rw [heq]; exact hwaits v.count

end

/-! ## The release of the stack -/

/-- An ACTIVE entry is let go of: its HELD ticket returned, or its round left (R89). -/
theorem releaseEntry_of_workedBy {s : State} {h : Port} {e : Entry} {v : Ticket} (hactive : e.state = .active)
    (hv : s.named e.handle = some v) (hw : v.workedBy h = true) :
    (v.standing = .held h ∧ s.releaseEntry h e = s.returnTicket e.handle.slot)
      ∨ s.releaseEntry h e = s.leaveRound h e.handle.slot := by
  rcases held_or_spread_of_workedBy hw with hheld | hround
  · refine .inl ⟨hheld, ?_⟩
    rw [State.releaseEntry, hactive, hv]
    dsimp only
    rw [hheld]
  · refine .inr ?_
    unfold Ticket.inRound at hround
    split at hround
    next o c x hspread =>
      rw [State.releaseEntry, hactive, hv]
      dsimp only
      rw [hspread]
    next => cases hround

/-- A ticket in service is worked on: its slot is not idle. -/
theorem slot_ne_of_idle {s : State} {h : Port} {i : SlotId} {hd : Handle} {v : Ticket} (hidle : s.Idle i)
    (hv : s.named hd = some v) (hw : v.workedBy h = true) : hd.slot ≠ i := by
  rintro rfl
  have hwaits := hidle v (ticketAt_of_named hv).1
  rw [waits_eq_false_of_workedBy hw] at hwaits
  cases hwaits

/-- Ticket u of host g, in slot i, has been returned: it waits again, or its slot has been freed (R83). -/
structure State.Returned (x : State) (i : SlotId) (gen : Fin 16) (u : Ticket) (g : Port) (stands : Prop) : Prop where
  waits : stands → x.Keeps i gen { u with standing := .waiting } g
  gone : ¬ stands → (x.slotAt i).generation = gen + 1
  idle : x.Idle i

theorem State.Returned.congr {x y : State} {i : SlotId} {gen : Fin 16} {u : Ticket} {g : Port} {stands : Prop}
    (h : x.Returned i gen u g stands) (hpool : y.pool = x.pool) : y.Returned i gen u g stands where
  waits hs := (h.waits hs).congr hpool
  gone hs := by rw [State.slotAt, hpool]; exact h.gone hs
  idle := idle_congr (by rw [State.slotAt, hpool]; rfl) h.idle

/-- The causes of a withdrawal read the lines and the fault queue. -/
theorem stillStands_congr {s t : State} (hinactive : ∀ src, t.lineInactive src = s.lineInactive src)
    (hfaults : t.faults = s.faults) (src : SourceId) : t.StillStands src ↔ s.StillStands src := by
  rw [State.StillStands, hinactive, hfaults]

section
variable {x : State} {i : SlotId} {gen : Fin 16} {u : Ticket} {g : Port}

/-- The ticket of host g in slot i is returned by its own entry (R83). -/
theorem State.Keeps.returnOwn (h : x.Keeps i gen u g) (hheld : u.standing = .held g) :
    (x.returnTicket i).Returned i gen u g (x.StillStands u.source) := by
  have hw : u.waits = false := by simp [Ticket.waits, hheld]
  have hno : SourceId.posted u.source = true ∨ x.waitingTicket u.source = none := by
    refine h.alone.imp_right fun hothers => ?_
    by_contra hne
    obtain ⟨j, hj⟩ := Option.ne_none_iff_exists'.1 hne
    obtain ⟨v, hv, hsource, hwaits⟩ := ticket_of_waitingTicket hj
    by_cases hji : j = i
    · rw [hji, h.ticketAt] at hv
      obtain rfl := Option.some.inj hv
      rw [hw] at hwaits
      cases hwaits
    · rw [(hothers j hji v hv hsource).1] at hwaits
      cases hwaits
  refine ⟨fun hstill => ?_, fun hgone => ?_, (returnTicket_vacates h.ticketAt).idle⟩
  · obtain ⟨-, hslots, hdeferrals⟩ := returnTicket_of_wait h.ticketAt hw hstill hno
    simp only [h.nothing u.source] at hslots
    refine ⟨?_, fun src => ?_, h.alone.imp_right fun hothers j hj v hv hsource => hothers j hj v ?_ hsource⟩
    · rw [hslots, if_pos rfl, h.slot]
    · rw [hdeferrals, h.nothing src, ite_self]
    · rwa [State.ticketAt, hslots, if_neg hj] at hv
  · rw [returnTicket_of_gone h.ticketAt hw hgone h.nothing, clearSlot_slotAt, if_pos rfl, h.slot]

/-- The release of another entry keeps the ticket (R89). -/
theorem State.Keeps.releaseEntry {w v : Ticket} {e : Entry} (h : x.Keeps i gen w g) (hactive : e.state = .active)
    (hv : x.named e.handle = some v) (hworked : v.workedBy g = true) (hslot : e.handle.slot ≠ i) :
    (x.releaseEntry g e).Keeps i gen w g := by
  rcases releaseEntry_of_workedBy hactive hv hworked with ⟨hheld, heq⟩ | heq <;> rw [heq]
  · exact h.returnTicket hslot (ticketAt_of_named hv).1 hheld
  · exact h.leaveRound hslot

theorem State.Returned.releaseEntry {v : Ticket} {e : Entry} {stands : Prop} (h : x.Returned i gen u g stands)
    (hactive : e.state = .active) (hv : x.named e.handle = some v) (hworked : v.workedBy g = true) :
    (x.releaseEntry g e).Returned i gen u g stands := by
  have hslot := slot_ne_of_idle h.idle hv hworked
  exact ⟨fun hs => (h.waits hs).releaseEntry hactive hv hworked hslot,
    fun hs => (releaseEntry_generation x g e hslot.symm).trans (h.gone hs),
    (releaseEntry_undisturbedAt x g e hslot.symm).idle h.idle⟩

theorem State.Returned.leaveRound {j : SlotId} {stands : Prop} (h : x.Returned i gen u g stands) (hj : j ≠ i) :
    (x.leaveRound g j).Returned i gen u g stands :=
  ⟨fun hs => (h.waits hs).leaveRound hj, fun hs => (leaveRound_generation x g hj.symm).trans (h.gone hs),
    (leaveRound_undisturbedAt x g hj.symm).idle h.idle⟩

end

/-- The release of a stack returns the ticket that the host holds in slot i, by its own entry (R83, R89). -/
theorem releaseStack_returned {i : SlotId} {gen : Fin 16} {u : Ticket} {g : Port} (hheld : u.standing = .held g)
    {stands : Prop} (es : List Entry) {x : State} (hcore : x.Core) (hstack : (x.port g).stack = es)
    (hstands : stands ↔ x.StillStands u.source)
    (hx : x.Keeps i gen u g ∨ x.Returned i gen u g stands) :
    (x.releaseStack g es).Returned i gen u g stands := by
  induction es generalizing x with
  | nil =>
    refine State.Returned.congr (hx.resolve_left fun hkeeps => ?_) (State.setStack_pool ..)
    have hnone := workedBy_eq_false_of_empty hcore.holding hstack hkeeps.ticketAt
    simp [Ticket.workedBy, hheld] at hnone
  | cons e rest ih =>
    obtain ⟨hcore', hrest⟩ := hcore.releaseTop hstack
    have honly := releaseEntry_onlyPool (x.setStack g rest) g e
    refine ih hcore' hrest (hstands.trans (stillStands_congr (fun src => ?_) honly.faults u.source).symm) ?_
    · rw [honly.lineInactive]
    · have hpool : (x.setStack g rest).pool = x.pool := State.setStack_pool ..
      cases he : e.state with
      | lapsed =>
        rw [State.releaseEntry, he]
        exact hx.imp (·.congr hpool) (·.congr hpool)
      | active =>
        obtain ⟨v, hv, -, -, -, hw⟩ := hcore.served (h := g) (mem_work.2 ⟨by simp [hstack], he⟩)
        have hv' : (x.setStack g rest).named e.handle = some v := hv
        rcases hx with hkeeps | hreturned
        · by_cases hslot : e.handle.slot = i
          · have hvu : v = u := by
              have hticket := (ticketAt_of_named hv).1
              rw [hslot, hkeeps.ticketAt] at hticket
              exact (Option.some.inj hticket).symm
            have hown := (hkeeps.congr hpool).returnOwn hheld
            have hreturn : (x.setStack g rest).releaseEntry g e = (x.setStack g rest).returnTicket i := by
              rw [State.releaseEntry, he, hv', hvu]
              dsimp only
              rw [hheld, hslot]
            rw [hreturn]
            refine .inr ⟨fun hs => hown.waits (hstands.1 hs), fun hs => hown.gone (mt hstands.2 hs), hown.idle⟩
          · exact .inl ((hkeeps.congr hpool).releaseEntry he hv' hw hslot)
        · exact .inr ((hreturned.congr hpool).releaseEntry he hv' hw)

/-- The release of a stack spares the tickets in service that the host does not work on (R89). -/
theorem releaseStack_spares {i : SlotId} {u : Ticket} {g : Port} (hservice : u.waits = false)
    (hfree : u.workedBy g = false) (es : List Entry) {x : State} (hcore : x.Core) (hstack : (x.port g).stack = es)
    (hu : x.ticketAt i = some u) : (x.releaseStack g es).slotAt i = x.slotAt i := by
  induction es generalizing x with
  | nil => rfl
  | cons e rest ih =>
    obtain ⟨hcore', hrest⟩ := hcore.releaseTop hstack
    have hslot : ((x.setStack g rest).releaseEntry g e).slotAt i = x.slotAt i := by
      cases he : e.state with
      | lapsed => rw [State.releaseEntry, he]; rfl
      | active =>
        obtain ⟨v, hv, -, -, -, hw⟩ := hcore.served (h := g) (mem_work.2 ⟨by simp [hstack], he⟩)
        have hne : i ≠ e.handle.slot := by
          rintro rfl
          have hticket := (ticketAt_of_named hv).1
          rw [hu] at hticket
          rw [Option.some.inj hticket, hw] at hfree
          cases hfree
        exact (releaseEntry_undisturbedAt (x.setStack g rest) g e hne).slotAt hu hservice
    rw [State.releaseStack, ih hcore' hrest (by rw [State.ticketAt, hslot]; exact hu), hslot]

/-! ## The rest of the release -/

/-- The rounds that a host leaves unclaimed are none of the slots in which it is owed nothing (R90). -/
theorem dropUnclaimed_slot {s : State} {h : Port} {i : SlotId} (hnot : s.owesUnclaimed h i = false) {P : State → Prop}
    (hP : ∀ x j, j ≠ i → P x → P (x.leaveRound h j)) (hs : P s) : P (s.dropUnclaimed h) :=
  foldl_keeps_mem (fun x j hj => hP x j fun hji => by
    have howes := (List.mem_filter.1 hj).2
    rw [hji, hnot] at howes
    cases howes) s hs

theorem owesUnclaimed_of_notOwed {s : State} {h : Port} {i : SlotId} (hnot : s.NotOwed h i) :
    s.owesUnclaimed h i = false := by
  unfold State.owesUnclaimed
  split
  · rfl
  next u hu =>
    have howed := hnot u hu
    split
    next o c x hround =>
      rw [Ticket.owed, hround] at howed
      rw [show HostSet.has o h = false from howed]
      rfl
    next => rfl

/-- An occurrence of another source leaves a slot as it is (R9). -/
theorem occurrence_slotAt {s : State} {i : SlotId} {w : Ticket} {src : SourceId} (hw : s.ticketAt i = some w)
    (hsource : w.source ≠ src) (p : BitVec 16) : (s.occurrence src p).slotAt i = s.slotAt i := by
  have hcreate {k : SlotId} (hk : s.lowestFree = some k) (c : Nat) (st : Time) (p : Option (BitVec 16)) :
      (s.createTicket k src c st p).slotAt i = s.slotAt i := by
    rw [createTicket_slotAt, if_neg]
    rintro rfl
    rw [(lowestFree_eq_some.1 hk).1] at hw
    cases hw
  rcases occurrence_cases s src p with ⟨-, heq⟩ | ⟨-, -, ⟨k, hk, heq⟩ | ⟨-, heq⟩⟩
    | ⟨-, -, ⟨k, hk, heq⟩ | ⟨-, ⟨d, -, heq⟩ | ⟨-, ⟨k, hk, heq⟩ | ⟨-, heq⟩⟩⟩⟩ <;> rw [heq]
  · exact hcreate hk ..
  · obtain ⟨v, hv, hvs, -⟩ := ticket_of_waitingTicket hk
    rw [State.coalesce, hv]
    dsimp only
    rw [State.setTicket_slotAt, if_neg]
    rintro rfl
    rw [hw] at hv
    exact hsource ((Option.some.inj hv) ▸ hvs)
  · rfl
  · exact hcreate hk ..
  · rfl

/-- The WAITING ticket of source 48 takes one more occurrence, if the source is enabled (R9). -/
theorem faultOccurrence_slotAt {s : State} (hlaws : s.OrderLaw) (hone : s.OneWaitingLaw) {i : SlotId} {w : Ticket}
    (hw : s.ticketAt i = some w) (hsource : w.source = faultSource) (hwaits : w.waits = true) :
    (s.occurrence faultSource).slotAt i =
      { s.slotAt i with ticket := some { w with
          count := if s.faultLevel ≠ 0 then min (w.count + 1) 255 else w.count } } := by
  have hsame : s.slotAt i = { s.slotAt i with ticket := some w } := by
    have hticket : (s.slotAt i).ticket = some w := hw
    rw [← hticket]
  have hlevel : (s.config faultSource).level = s.faultLevel := by rw [config_faultSource]
  have hnot : ¬ ∀ j, ∀ v ∈ s.ticketAt j, v.source = faultSource → v.waits = false := fun hall => by
    rw [hall i w hw hsource] at hwaits
    cases hwaits
  rcases occurrence_cases s faultSource 0 with ⟨hzero, heq⟩ | ⟨-, hp, -⟩
    | ⟨hon, -, ⟨k, hk, heq⟩ | ⟨hnone, -⟩⟩
  · rw [heq, if_neg (not_not.2 (hlevel ▸ hzero))]
    exact hsame
  · exact absurd hp (by decide)
  · obtain ⟨v, hv, hvs, hvw⟩ := ticket_of_waitingTicket hk
    obtain rfl : i = k := hone i k w hw v hv (hsource.trans hvs.symm) (by rw [hsource]; decide) hwaits hvw
    rw [heq, State.coalesce, hw, if_pos (hlevel ▸ hon)]
    dsimp only
    rw [State.setTicket_slotAt, if_pos rfl]
    rfl
  · exact absurd (waits_eq_false_of_waitingTicket hlaws hnone) hnot

/-- A host that holds a ticket has an ACTIVE entry (R63). -/
theorem activeEntries_ne_zero {s : State} (hs : s.Core) {i : SlotId} {u : Ticket} {g : Port}
    (hu : s.ticketAt i = some u) (hw : u.workedBy g = true) : s.activeEntries g ≠ 0 := by
  intro hzero
  have hempty : s.work g = [] := List.filter_eq_nil_iff.2 (List.countP_eq_zero.1 hzero)
  have hone := (holdingLaw_iff.1 hs.holding).2 i u hu g hw
  rw [hempty] at hone
  cases hone

/-- The stack and the unclaimed rounds of a host released, the record apart (R91). -/
def State.dropped (s : State) (g : Port) : State := (s.releaseStack g (s.port g).stack).dropUnclaimed g

theorem release_eq (s : State) (g : Port) :
    s.release g =
      if s.activeEntries g = 0 then s.dropped g
      else (s.dropped g).appendFault (.hostReleased g (s.activeEntries g) s.timebase) := rfl

/-- The ticket that the host of a release holds is returned, and the record of the release counts as an occurrence in a
returned fault ticket (R83, R91). -/
theorem release_returned {s : State} (hs : s.Core) {i : SlotId} {gen : Fin 16} {u : Ticket} {g : Port}
    (hheld : u.standing = .held g) (hkeeps : s.Keeps i gen u g) :
    (s.StillStands u.source → (s.release g).slotAt i =
        { generation := gen
          ticket := some { u with
            standing := .waiting
            count := if u.source = faultSource ∧ s.faultLevel ≠ 0 then min (u.count + 1) 255 else u.count } })
      ∧ (¬ s.StillStands u.source → ((s.release g).slotAt i).generation = gen + 1) := by
  have hworked : u.workedBy g = true := by simp [Ticket.workedBy, hheld]
  have hstack := releaseStack_returned hheld (s.port g).stack hs rfl Iff.rfl (.inl hkeeps)
  have hdropped : (s.dropped g).Returned i gen u g (s.StillStands u.source) :=
    dropUnclaimed_slot (owesUnclaimed_of_notOwed (notOwed_of_idle g hstack.idle))
      (P := fun x => x.Returned i gen u g (s.StillStands u.source)) (fun x j hj hx => hx.leaveRound hj) hstack
  have hlaws : (s.dropped g).PoolLaws :=
    poolLaws_keptByPool.dropUnclaimed _ g (poolLaws_keptByPool.releaseStack s g _ hs.pool)
  have hlevel : (s.dropped g).faultLevel = s.faultLevel := by
    rw [State.dropped, (dropUnclaimed_onlyPool _ g).faultLevel, releaseStack_frame]
  rw [release_eq, if_neg (activeEntries_ne_zero hs hkeeps.ticketAt hworked), appendFault_eq]
  generalize FaultRecord.hostReleased g (s.activeEntries g) s.timebase = r
  refine ⟨fun hstill => ?_, fun hgone => ?_⟩
  · have hwaiting := hdropped.waits hstill
    have hticket : State.ticketAt { s.dropped g with faults := (s.dropped g).faults.appended r } i =
        some { u with standing := .waiting } := hwaiting.ticketAt
    have hslot : State.slotAt { s.dropped g with faults := (s.dropped g).faults.appended r } i =
        { generation := gen, ticket := some { u with standing := .waiting } } := hwaiting.slot
    by_cases hsource : u.source = faultSource
    · rw [faultOccurrence_slotAt (s := { s.dropped g with faults := (s.dropped g).faults.appended r })
        hlaws.sound.1 hlaws.oneWaiting hticket hsource rfl, hslot]
      simp only [hsource, hlevel, true_and]
    · rw [occurrence_slotAt hticket hsource, hslot, if_neg fun h => hsource h.1]
  · rw [occurrence_generation]
    exact hdropped.gone hgone

/-- A ticket in service that the host has no part in is spared by its release (R91). -/
theorem release_spares {s : State} (hs : s.Core) {i : SlotId} {u : Ticket} {g : Port} (hu : s.ticketAt i = some u)
    (hservice : u.waits = false) (howed : HostSet.has u.owed g = false) (hfree : u.workedBy g = false) :
    (s.release g).slotAt i = s.slotAt i := by
  have hstack := releaseStack_spares hservice hfree (s.port g).stack hs rfl hu
  have hdropped : (s.dropped g).slotAt i = s.slotAt i := by
    refine dropUnclaimed_slot (i := i) (P := fun x => x.slotAt i = s.slotAt i) (owesUnclaimed_of_notOwed fun v hv => ?_)
      (fun x j hj hx => ?_) hstack
    · rw [State.ticketAt, hstack] at hv
      rw [Option.mem_unique hv hu]
      exact howed
    · have hux : x.ticketAt i = some u := by rw [State.ticketAt, hx]; exact hu
      exact ((leaveRound_undisturbedAt x g hj.symm).slotAt hux hservice).trans hx
  have hud : (s.dropped g).ticketAt i = some u := by rw [State.ticketAt, hdropped]; exact hu
  rw [release_eq]
  split
  · exact hdropped
  · exact (((appendFault_undisturbed _ _).slot i).slotAt hud hservice).trans hdropped

/-! ## The departure -/

theorem endReservationsOf_slot (s : State) (h : Port) (i : SlotId) :
    (s.endReservationsOf h).slotAt i =
      { s.slotAt i with ticket := (s.ticketAt i).map fun u => u.unreservedFor h } := by
  rw [← endReservationsOf_ticketAt, State.ticketAt, endReservationsOf_slotAt]

/-- The slots after a departure: those of the release, with the reservations for the host ended (R48, R141). -/
theorem depart_slotAt (s : State) (h : Port) (i : SlotId) :
    (s.depart h).slotAt i =
      { ((s.endReservationsOf h).release h).slotAt i with
        ticket := (((s.endReservationsOf h).release h).ticketAt i).map fun u => u.unreservedFor h } := by
  unfold State.depart
  dsimp only
  rw [endReservationsOf_slot]
  rfl

theorem unreservedFor_idem (u : Ticket) (h : Port) : (u.unreservedFor h).unreservedFor h = u.unreservedFor h := by
  unfold Ticket.unreservedFor
  dsimp only
  rw [Option.filter_filter]
  simp only [Bool.and_self]

theorem unreservedFor_of_none {u : Ticket} {h : Port} (hr : ∀ r ∈ u.reservation, r.host ≠ h) :
    u.unreservedFor h = u := by
  obtain ⟨_, _, _, _, _, _, reservation, _⟩ := u
  unfold Ticket.unreservedFor
  cases reservation with
  | none => rfl
  | some r =>
    have hne : r.host ≠ h := hr r rfl
    simp [Option.filter, hne]

/-- A ticket in service that the host has no part in is spared by its departure (R91, R141). -/
theorem depart_spares {s : State} (hs : s.Core) {i : SlotId} {u : Ticket} {g : Port} (hu : s.ticketAt i = some u)
    (hservice : u.waits = false) (howed : HostSet.has u.owed g = false) (hfree : u.workedBy g = false)
    (hreserved : ∀ r ∈ u.reservation, r.host ≠ g) : (s.depart g).slotAt i = s.slotAt i := by
  have hended : (s.endReservationsOf g).slotAt i = s.slotAt i := by
    have hticket : (s.slotAt i).ticket = some u := hu
    rw [endReservationsOf_slot, hu, Option.map_some, unreservedFor_of_none hreserved, ← hticket]
  have hu' : (s.endReservationsOf g).ticketAt i = some u := by rw [State.ticketAt, hended]; exact hu
  have hreleased := release_spares (hs.endReservationsOf g) hu' hservice howed hfree
  have hticket : (s.slotAt i).ticket = some u := hu
  rw [depart_slotAt, State.ticketAt, hreleased, hended, hticket, Option.map_some, unreservedFor_of_none hreserved,
    ← hticket]

/-- A departure returns each HELD ticket of its host (R83, R89, R91). -/
theorem depart_returns {s : State} (hs : s.Core) (g : Port) : Returns s (s.depart g) g := by
  intro i u hu hheld hn hcond
  have hended := hs.endReservationsOf g
  have honly := endReservationsOf_onlyPool s g
  have hslot : (s.endReservationsOf g).slotAt i =
      { generation := (s.slotAt i).generation, ticket := some (u.unreservedFor g) } := by
    rw [endReservationsOf_slot, Option.mem_def.1 hu, Option.map_some]
  have hkeeps : (s.endReservationsOf g).Keeps i (s.slotAt i).generation (u.unreservedFor g) g := by
    refine ⟨hslot, fun src => by rw [endReservationsOf_deferralOf, hn src], hcond.imp_right fun ⟨hnone, hothers⟩ => ?_⟩
    intro j hj v hv hsource
    rw [endReservationsOf_ticketAt, Option.map_eq_some_iff] at hv
    obtain ⟨v0, hv0, rfl⟩ := hv
    exact ⟨waits_eq_false_of_waitingTicket hs.pool.sound.1 hnone j v0 hv0 hsource, hothers j hj v0 hv0 hsource⟩
  obtain ⟨hstill, hgone⟩ := release_returned hended (u := u.unreservedFor g) hheld hkeeps
  have hstands : (s.endReservationsOf g).StillStands u.source ↔ s.StillStands u.source :=
    stillStands_congr honly.lineInactive honly.faults u.source
  refine ⟨fun hs => ?_, fun hs => ?_⟩
  · have hwaits := hstill (hstands.2 hs)
    rw [depart_slotAt, State.ticketAt, hwaits, Option.map_some, honly.faultLevel]
    exact congrArg (fun v => ({ generation := (s.slotAt i).generation, ticket := some v } : Slot))
      (unreservedFor_idem { u with
        standing := .waiting
        count := if u.source = faultSource ∧ s.faultLevel ≠ 0 then min (u.count + 1) 255 else u.count } g)
  · have hgen := hgone (mt hstands.1 hs)
    rw [State.named, if_neg]
    rw [depart_slotAt]
    dsimp only [State.handleOf]
    rw [hgen]
    simp

end Sys2Proof.Machine
end

section
/-! SUPPORT. The departure of a host: what DETACH and EJECT leave of it (R91, R123, R141). -/

namespace Sys2Proof.Machine

/-! ## The pool of a release -/

/-- The end of a host's reservations, as the statements write it (R48). -/
theorem unreserved_eq (s : State) (g : Port) : s.unreserved g = s.endReservationsOf g := by
  refine State.ext_fields rfl rfl rfl rfl ?_ rfl rfl rfl rfl rfl
  refine congrArg (fun f => ({ s.pool with slots := fill f } : Pool)) (funext fun i => ?_)
  exact (endReservationsOf_slot s g i).symm.trans (look_fill _ i)

/-- What a release does with an entry, as the statements write it (R89). -/
theorem releasedEntry_eq (s : State) (g : Port) (e : Entry) : s.releasedEntry g e = s.releaseEntry g e := by
  unfold State.releasedEntry State.releaseEntry
  cases e.state with
  | lapsed => rfl
  | active => cases s.named e.handle <;> rfl

/-- The release of a stack, as the statements write it, leaves out that the stack is empty at the end (R89). -/
theorem releaseStack_eq (s : State) (g : Port) (es : List Entry) :
    s.releaseStack g es = (s.releasedStack g es).setStack g [] := by
  induction es generalizing s with
  | nil => rfl
  | cons e rest ih => rw [State.releaseStack, State.releasedStack, ih, releasedEntry_eq]

/-- The rounds that owe a host and that it has not claimed (R90). -/
theorem unclaimedBy_eq (s : State) (g : Port) : s.unclaimedBy g = s.pool.order.filter (s.owesUnclaimed g) := by
  refine List.filter_congr fun i _ => ?_
  unfold State.owesUnclaimed
  cases s.ticketAt i with
  | none => rfl
  | some u =>
    cases hstanding : u.standing <;> simp [Ticket.owed, Ticket.claimed, hstanding]

theorem SameView.leaveRounds {s t : State} (h : SameView s t) (hq : SameCauses s t) (g : Port) (l : List SlotId) :
    SameView (l.foldl (fun (x : State) i => x.leaveRound g i) s) (l.foldl (fun (x : State) i => x.leaveRound g i) t) := by
  induction l generalizing s t with
  | nil => exact h
  | cons i l ih =>
    exact ih (h.leaveRound hq g i) (hq.of_onlyPool (leaveRound_onlyPool s g i) (leaveRound_onlyPool t g i))

/-- The pool after a departure is that of the release, with the reservations for the host ended (R91, R141). -/
theorem depart_pool (s : State) (g : Port) : (s.depart g).pool = ((s.released g).unreserved g).pool := by
  have honly := endReservationsOf_onlyPool s g
  have hactive : (s.endReservationsOf g).activeEntries g = s.activeEntries g := by
    rw [State.activeEntries, honly.port]
    rfl
  have hstack : ((s.endReservationsOf g).port g).stack = (s.port g).stack := by rw [honly.port]
  have hdropped : SameView
      ((((s.endReservationsOf g).releasedStack g (s.port g).stack).unclaimedBy g).foldl
        (fun (x : State) i => x.leaveRound g i) ((s.endReservationsOf g).releasedStack g (s.port g).stack))
      ((s.endReservationsOf g).dropped g) := by
    rw [State.dropped, hstack, releaseStack_eq, State.dropUnclaimed, unclaimedBy_eq]
    exact (sameView_setStack _ g []).leaveRounds (.of_stack _ g []) g _
  have hreleased : SameView (s.released g) ((s.endReservationsOf g).release g) := by
    rw [State.released, release_eq, hactive, unreserved_eq]
    split
    · exact hdropped
    · exact sameView_appendFault hdropped _
  rw [unreserved_eq]
  refine Eq.trans ?_ (hreleased.endReservationsOf g).pool
  rfl

/-! ## What a departure leaves -/

/-- State t shows the departure of port g from s, but for what its command does beside it: to the token, the notices and
the responses. -/
structure ShowsDepart (s t : State) (g : Port) : Prop where
  pool : t.pool = (s.depart g).pool
  timers : t.timers = (s.depart g).timers
  faults : t.faults = (s.depart g).faults
  timebase : t.timebase = s.timebase
  sources : t.sources = s.sources
  faultLevel : t.faultLevel = s.faultLevel
  lines : t.lines = s.lines
  pending : t.pending = s.pending
  state (p : Port) : (t.port p).state = ((s.depart g).port p).state
  threshold (p : Port) : (t.port p).threshold = ((s.depart g).port p).threshold
  stack (p : Port) : (t.port p).stack = ((s.depart g).port p).stack
  flushed (p : Port) : (t.port p).flushed = ((s.depart g).port p).flushed
  ejected (p : Port) : p ≠ g → (t.port p).ejected = ((s.depart g).port p).ejected
  attn (p : Port) : (t.port p).attn = (t.offer p).isSome

/-- A departure reads the slots of the pool alone. -/
theorem returns_congr {s t t' : State} {g : Port} (h : t'.pool = t.pool) (ht : Returns s t g) : Returns s t' g := by
  intro i u hu hheld hn hcond
  obtain ⟨hstill, hgone⟩ := ht i u hu hheld hn hcond
  have hslot (j : SlotId) : t'.slotAt j = t.slotAt j := by rw [State.slotAt, h]; rfl
  refine ⟨fun hs => (hslot i).trans (hstill hs), fun hs => ?_⟩
  have hnone := hgone hs
  unfold State.named State.ticketAt at hnone ⊢
  rw [hslot]
  exact hnone

/-- A departed host has no work, no round and no reservation (R91, R141). -/
theorem depart_nothing {s : State} (hs : s.Core) {g : Port} {i : SlotId} {u : Ticket}
    (hu : (s.depart g).ticketAt i = some u) :
    HostSet.has u.owed g = false ∧ u.workedBy g = false ∧ ∀ r ∈ u.reservation, r.host ≠ g := by
  have hcore := hs.depart g
  have hgone : (s.depart g).attached g = false := by rw [depart_attached]; simp
  have hempty : ((s.depart g).port g).stack = [] := by rw [depart_port, if_pos rfl]
  obtain ⟨howed, hreserved⟩ := hcore.pool.absent g hgone i u hu
  exact ⟨howed, workedBy_eq_false_of_empty hcore.holding hempty hu, hreserved⟩

/-- What the statements ask of a departure. -/
theorem ShowsDepart.departed {s t : State} {g : Port} (h : ShowsDepart s t g) (hs : s.Core) : Departed s t g := by
  have hslot (i : SlotId) : t.slotAt i = (s.depart g).slotAt i := by rw [State.slotAt, h.pool]; rfl
  have hstate : (t.port g).state = .detached := by rw [h.state, depart_port, if_pos rfl]
  refine ⟨hstate, ?_, ?_, ?_, fun i u hu => ?_, fun i u hu hservice howed hfree hreserved => ?_, ?_, ?_, fun n => ?_, ?_,
    ⟨h.timebase, h.sources, h.faultLevel, h.lines, h.pending⟩, fun p hp => ?_⟩
  · rw [h.stack, depart_port, if_pos rfl]
  · rw [h.attn]
    cases ho : t.offer g with
    | none => rfl
    | some i =>
      have hattached := (offer_attached ho).2.1
      simp [State.attached, hstate] at hattached
  · rw [h.threshold, depart_port, if_pos rfl]
  · refine depart_nothing hs (i := i) ?_
    rw [State.ticketAt, ← hslot]
    exact hu
  · rw [hslot]
    exact depart_spares hs hu hservice howed hfree hreserved
  · exact returns_congr h.pool (depart_returns hs g)
  · rw [h.pool, depart_pool]
  · have htimer : t.timer n = (s.depart g).timer n := by rw [State.timer, h.timers]; rfl
    rw [htimer, depart_timer]
    refine if_congr ?_ rfl rfl
    rw [Timer.ownedBy, Bool.and_eq_true, beq_iff_eq]
  · rw [h.faults, depart_frame, release_faults]
  · have hother : (s.depart g).port p = s.port p := by rw [depart_port, if_neg hp]
    rw [h.state, h.threshold, h.stack, h.flushed, h.ejected p hp, hother]
    exact ⟨rfl, rfl, rfl, rfl, rfl, h.attn p⟩

/-- A response leaves what the departure shows. -/
theorem ShowsDepart.answer {s t : State} {g : Port} (h : ShowsDepart s t g) (p : Port) (tag : Byte) (st : Status)
    (d : List Byte) : ShowsDepart s (t.answer p tag st d) g := by
  have hport (q : Port) : (t.answer p tag st d).port q =
      { t.port q with link := ((t.answer p tag st d).port q).link } := by
    rw [State.answer_port]
    split
    next hq => rw [hq]
    next => rfl
  refine ⟨h.pool, h.timers, h.faults, h.timebase, h.sources, h.faultLevel, h.lines, h.pending, fun q => ?_, fun q => ?_,
    fun q => ?_, fun q => ?_, fun q hq => ?_, fun q => ?_⟩ <;> rw [hport q]
  · exact h.state q
  · exact h.threshold q
  · exact h.stack q
  · exact h.flushed q
  · exact h.ejected q hq
  · rw [answer_offer]
    exact h.attn q

theorem depart_fields (s : State) (g : Port) :
    (s.depart g).timebase = s.timebase ∧ (s.depart g).sources = s.sources ∧ (s.depart g).faultLevel = s.faultLevel
      ∧ (s.depart g).lines = s.lines ∧ (s.depart g).pending = s.pending := by
  rw [depart_frame]
  exact ⟨rfl, rfl, rfl, rfl, rfl⟩

theorem portLeft_shows (s : State) (h : Port) : ShowsDepart s (s.portLeft h) h := by
  obtain ⟨htime, hsources, hlevel, hlines, hpending⟩ := depart_fields s h
  refine ⟨portLeft_pool s h, portLeft_timers s h, portLeft_faults s h, ?_, ?_, ?_, ?_, ?_, fun p => ?_, fun p => ?_,
    fun p => ?_, fun p => ?_, fun p _ => ?_, fun p => ?_⟩
  · rw [State.portLeft, recompute_timebase, htime]
  · rw [State.portLeft, recompute_sources, hsources]
  · rw [State.portLeft, recompute_faultLevel, hlevel]
  · rw [State.portLeft, recompute_lines, hlines]
  · rw [State.portLeft, recompute_pending, hpending]
  all_goals rw [portLeft_port]

theorem ejectPort_shows (s : State) (h : Port) : ShowsDepart s (s.ejectPort h) h := by
  obtain ⟨htime, hsources, hlevel, hlines, hpending⟩ := depart_fields s h
  refine ⟨ejectPort_pool s h, ejectPort_timers s h, ejectPort_faults s h, ?_, ?_, ?_, ?_, ?_, fun p => ?_, fun p => ?_,
    fun p => ?_, fun p => ?_, fun p hp => ?_, fun p => ?_⟩
  · rw [State.ejectPort, recompute_timebase, State.setPort_timebase, htime]
  · rw [State.ejectPort, recompute_sources, State.setPort_sources, hsources]
  · rw [State.ejectPort, recompute_faultLevel, State.setPort_faultLevel, hlevel]
  · rw [State.ejectPort, recompute_lines, State.setPort_lines, hlines]
  · rw [State.ejectPort, recompute_pending, State.setPort_pending, hpending]
  case refine_10 => rw [ejectPort_port, if_neg hp]
  all_goals rw [ejectPort_port]

/-! ## DETACH and EJECT -/

/-- DETACH at an ATTACHED port (R141). -/
theorem exec_detach {h : Port} {s : State} (ha : (s.port h).state = .attached) (tag : Byte) :
    exec (.detach h tag) s =
      .next ((s.portLeft h).answer h tag .ok
        [byteOf (s.activeEntries h), byteOf (s.ownedTimers h), bitAt 0 (s.token == some h)]) := by
  refine congrArg Host.Outcome.next ?_
  rw [State.ifAttached, if_pos (attached_iff.2 ha)]
  rfl

/-- The serial side of the ports after a command of port h that changes the response slot of no other port. -/
theorem link_of_serial {s t : State} {h : Port} (hserial : SameSerial s t)
    (hothers : ∀ p, p ≠ h → (t.port p).link = (s.port p).link) (p : Port) :
    (t.port p).link =
      { (s.port p).link with slot := if p = h then (t.port h).link.slot else (s.port p).link.slot } := by
  by_cases hp : p = h
  · rw [if_pos hp, ← hp]
    exact hserial p
  · rw [if_neg hp]
    exact hothers p hp

theorem depart_link (s : State) (g p : Port) : ((s.depart g).port p).link = (s.port p).link := by
  rw [depart_port]
  split
  next hp => rw [hp]
  next => rfl

theorem bitAt_zero (b : Bool) : bitAt 0 b = if b = true then 1 else 0 := by
  cases b <;> rfl

/-- Settles O14: the departure, with the token vacated and a report of what went. -/
theorem detachLeavesNothingBehind : Obligations.DetachLeavesNothingBehind := by
  intro h tag s hlaws ha
  have hcore : s.Core := (lawful_iff.1 hlaws).1
  have hshows := (portLeft_shows s h).answer h tag .ok
    [byteOf (s.activeEntries h), byteOf (s.ownedTimers h), bitAt 0 (s.token == some h)]
  have hserial : SameSerial s ((s.portLeft h).answer h tag .ok
      [byteOf (s.activeEntries h), byteOf (s.ownedTimers h), bitAt 0 (s.token == some h)]) :=
    (commandAct_serial (.leave (attached_iff.2 ha))).trans (commandAct_serial (.answer ..))
  refine ⟨_, exec_detach ha tag, hshows.departed hcore, ?_, ?_, ?_, ?_, fun g => ?_⟩
  · rw [hshows.flushed, depart_port, if_pos rfl]
  · rw [State.answer_port, if_pos rfl, portLeft_port, depart_port, if_pos rfl]
  · rw [State.answer_token, portLeft_token]
  · rw [bitAt_zero, if_congr (beq_iff_eq (a := s.token) (b := some h)) rfl rfl]
    exact answered_answer (s.portLeft h) h tag .ok _
  · refine link_of_serial hserial (fun p hp => ?_) g
    rw [State.answer_port, if_neg hp, portLeft_port, depart_link]

/-- EJECT by the supervisor of a port that is not there, of itself, or of a DETACHED port is refused (R122). -/
theorem exec_eject_of_noPort {h : Port} {s : State} (ha : (s.port h).state = .attached) (ht : s.token = some h)
    {target : Byte} (hp : 3 < target.toNat) (tag : Byte) :
    exec (.eject h tag target) s = .next (s.answer h tag .badArg []) := by
  simp [exec, execEject, ifSupervisor_of_holder ha ht, portOfByte_eq_none.2 hp]

theorem exec_eject_of_refused {h g : Port} {s : State} (ha : (s.port h).state = .attached) (ht : s.token = some h)
    {target : Byte} (hp : target.toNat = g.val) (hr : g = h ∨ (s.port g).state = .detached) (tag : Byte) :
    exec (.eject h tag target) s = .next (s.answer h tag .badArg []) := by
  have hrefused : g = h ∨ s.attached g = false := hr.imp_right fun hd => by simp [State.attached, hd]
  simp only [exec, execEject, ifSupervisor_of_holder ha ht, portOfByte_eq_some.2 hp, if_pos hrefused]

/-- EJECT by the supervisor of another ATTACHED port (R122, R123). -/
theorem exec_eject {h g : Port} {s : State} (ha : (s.port h).state = .attached) (ht : s.token = some h)
    {target : Byte} (hp : target.toNat = g.val) (hne : g ≠ h) (hg : (s.port g).state = .attached) (tag : Byte) :
    exec (.eject h tag target) s =
      .next ((s.ejectPort g).answer h tag .ok
        [byteOf g.val, byteOf (s.activeEntries g), byteOf (s.ownedTimers g)]) := by
  have hgo : ¬(g = h ∨ s.attached g = false) := by simp [hne, attached_iff.2 hg]
  simp only [exec, execEject, ifSupervisor_of_holder ha ht, portOfByte_eq_some.2 hp, if_neg hgo]

/-- What an accepted EJECT leaves (R123). -/
theorem eject_outcome {s : State} (hlaws : s.Lawful) {h g : Port} (ht : s.token = some h) {target : Byte}
    (hp : target.toNat = g.val) (hne : g ≠ h) (hg : (s.port g).state = .attached) (tag : Byte) {t : State}
    (htt : t = (s.ejectPort g).answer h tag .ok
      [byteOf g.val, byteOf (s.activeEntries g), byteOf (s.ownedTimers g)]) :
    Departed s t g ∧ (t.port g).ejected = true ∧ (t.port g).flushed = (s.port g).flushed ∧ t.token = some h
      ∧ (∀ p : Port, (t.port p).link =
          { (s.port p).link with slot := if p = h then (t.port h).link.slot else (s.port p).link.slot })
      ∧ t.Answered h tag .ok
          [target, BitVec.ofNat 8 ((s.port g).stack.countP fun e => e.state == .active),
           BitVec.ofNat 8 ((List.finRange 8).countP fun n =>
             (s.timer n).running && (s.timer n).owner == some g)] := by
  subst htt
  have hshows := (ejectPort_shows s g).answer h tag .ok
    [byteOf g.val, byteOf (s.activeEntries g), byteOf (s.ownedTimers g)]
  have hserial : SameSerial s ((s.ejectPort g).answer h tag .ok
      [byteOf g.val, byteOf (s.activeEntries g), byteOf (s.ownedTimers g)]) :=
    (commandAct_serial (.eject ht hne (attached_iff.2 hg))).trans (commandAct_serial (.answer ..))
  refine ⟨hshows.departed (lawful_iff.1 hlaws).1, ?_, ?_, ?_, link_of_serial hserial fun p hp => ?_, ?_⟩
  · rw [State.answer_port, if_neg hne, ejectPort_port, if_pos rfl]
  · rw [hshows.flushed, depart_port, if_pos rfl]
  · rw [State.answer_token, ejectPort_token, ht]
  · rw [State.answer_port, if_neg hp, ejectPort_port, depart_link]
  · have htarget : target = byteOf g.val := by
      rw [byteOf, ← hp, BitVec.ofNat_toNat, BitVec.setWidth_eq]
    rw [htarget]
    exact answered_answer (s.ejectPort g) h tag .ok _

/-- Settles O36: refused, or the departure of the target with its notice. -/
theorem ejectDetachesTarget : Obligations.EjectDetachesTarget := by
  intro h tag target s hlaws ha ht
  have hrefused : OnlyAnswers s (s.answer h tag .badArg []) h ∧ (s.answer h tag .badArg []).Answered h tag .badArg [] :=
    ⟨onlyAnswers_answer s h tag .badArg [], answered_answer s h tag .badArg []⟩
  by_cases hport : 3 < target.toNat
  · refine ⟨_, exec_eject_of_noPort ha ht hport tag, fun _ => hrefused, fun g hp => ?_⟩
    have := g.isLt
    omega
  · obtain ⟨g, hp⟩ : ∃ g : Port, target.toNat = g.val := ⟨⟨target.toNat, by omega⟩, rfl⟩
    have hunique {g' : Port} (hp' : target.toNat = g'.val) : g' = g := Fin.ext (hp'.symm.trans hp)
    by_cases hr : g = h ∨ (s.port g).state = .detached
    · refine ⟨_, exec_eject_of_refused ha ht hp hr tag, fun hout => absurd hout hport, fun g' hp' => ?_⟩
      obtain rfl := hunique hp'
      refine ⟨fun _ => hrefused, fun hne hg => absurd hr ?_⟩
      simp [hne, hg]
    · obtain ⟨hne, hdetached⟩ := not_or.1 hr
      have hg : (s.port g).state = .attached := by
        cases hstate : (s.port g).state with
        | attached => rfl
        | detached => exact absurd hstate hdetached
      refine ⟨_, exec_eject ha ht hp hne hg tag, fun hout => absurd hout hport, fun g' hp' => ?_⟩
      obtain rfl := hunique hp'
      exact ⟨fun hr' => absurd hr' hr, fun _ _ => eject_outcome hlaws ht hp hne hg tag rfl⟩

end Sys2Proof.Machine
end
